-- ==== Sys2Proof/Word.lean ====
section
/-! DEFINITION. The two machine words: the packed colour word of 16 bits (R29, R60) and the bus byte of 8 bits (R66). -/

namespace Sys2Proof

/-- One byte handed to the bus transport (R66). -/
abbrev Byte := BitVec 8

/-- One packed colour word of the Pixel Store (R29, R60). -/
abbrev Word := BitVec 16

end Sys2Proof
end

