-- ==== Sys2Proof/Config.lean ====
section
/-! DEFINITION. The implementation parameters of 00_scope.md R6 that no functional rule reads, as constants without a
body (nothing can see their values), the free values, and the two numbers of the reference configuration that
`State.reset` needs. -/

namespace Sys2Proof.Config

/-- The open value behind `RATE_RESET` (R6, R26, D5). Free; log 4. -/
opaque rateResetRaw : Nat

/-- `RATE_RESET`: some value in 1 to 100, which one is open (R6, R26, D5; log 4). -/
def rateReset : BitVec 7 := BitVec.ofNat 7 (rateResetRaw % 100 + 1)

/-- The open value behind `P100_US` (R6, D7). Free; log 5. -/
opaque p100Raw : Nat

/-- `P100_US`: the tick period in microseconds at `rate = 100`, an open positive integer (R6, D7; log 5). -/
def p100Us : Nat := p100Raw + 1

/-- `T_XFER_US` (R6): open, timing only; log 5. A whole number of microseconds: DESIGN CHOICE, the spec gives it no type;
log 24. -/
opaque tXferUs : Nat

/-- `T_BOOK_US` (R6): open, timing only; log 5. A whole number of microseconds: DESIGN CHOICE, the spec gives it no type;
log 24. -/
opaque tBookUs : Nat

/-- `BUS_BITORDER` (R6, D20): opaque, passed through by BEGIN; log 5. -/
opaque busBitOrder : Nat

/-- `BUS_CPOL` (R6, D20): opaque, passed through by BEGIN; log 5. -/
opaque busCpol : Nat

/-- `BUS_CLKDIV` (R6, D20): opaque, passed through by BEGIN; log 5. -/
opaque busClkDiv : Nat

/-- The value CONSTRUCT leaves in `position` ("position <- unspecified", R120, D4): free, a new one for each value of
the counter `freeCtr` of State; log 3. -/
opaque freePosition : Nat → Nat

/-- `IDXW` in the reference configuration of the command words and the test vectors (R6, R69, D1; log 1). -/
def referenceIdxw : Nat := 16

/-- `COUNT` in `State.reset`: the construction argument of the source's own scenario (S1). DESIGN CHOICE, log 2. -/
def resetCount : Nat := 3

end Sys2Proof.Config
end

