-- ==== Sys2Proof/Syntax.lean ====
section
/-! DEFINITION. The operations of the block as syntax: one constructor per row of spec/opcode_table.json (R70, R73). -/

namespace Sys2Proof

/-- The six commands of the command port (R70) and the two events (R73). An index and a count are numbers (the width
`IDXW` is a parameter of the machine, R6; WellFormed checks an index against it); channels are 8 bits, a packed value
16 bits (D16), a percent 7 bits (R71). -/
inductive Instr where
  /-- BEGIN (R122). -/
  | begin
  /-- SETRATE percent (R126); 0 and 101 to 127 decode as SETRATE too (R72). -/
  | setrate (percent : BitVec 7)
  /-- PIXCOUNT (R110). -/
  | pixcount
  /-- SETPIX_RGB index, r, g, b (R100). -/
  | setpixRgb (index : Nat) (r g b : BitVec 8)
  /-- SETPIX_PACKED index, v (R102). -/
  | setpixPacked (index : Nat) (v : BitVec 16)
  /-- REFRESH (R124). -/
  | refresh
  /-- TICK, the event of the tick source (R80). -/
  | tick
  /-- CONSTRUCT count, the reset of the block with its static parameter (R120). -/
  | construct (count : Nat)
deriving DecidableEq, Repr

end Sys2Proof
end

