-- ==== Sys2Proof/WellFormed.lean ====
section
/-! DEFINITION. Which instructions are well formed: the index operand of a SETPIX fits in `IDXW` bits (R69, R71, D15).
Every other operand has its width in its type. The percent of SETRATE and the count of CONSTRUCT are not checked here:
SETRATE with a bad percent is an instruction, which the machine refuses (R72, R128), and so is CONSTRUCT with a bad
count (R121). -/

namespace Sys2Proof

/-- The instruction's operands fit the fields of the encoding at index width `idxw`. -/
def Instr.wf (idxw : Nat) : Instr → Bool
  | .begin => true
  | .setrate _ => true
  | .pixcount => true
  | .setpixRgb index _ _ _ => decide (index < 2 ^ idxw)
  | .setpixPacked index _ => decide (index < 2 ^ idxw)
  | .refresh => true
  | .tick => true
  | .construct _ => true

end Sys2Proof
end

