-- ==== Sys2Proof/Decode.lean ====
section
/-! DEFINITION. Decoding and encoding of what stands at the block's three inputs: the command port (R68 to R72), the
tick strobe and the reset line (R73). A command word is a number of `28 + IDXW` bits, bit 0 the least significant;
it is presented whole, so it has no byte order (log 21). -/

namespace Sys2Proof

/-- What stands at one of the block's inputs. -/
inductive PortInput where
  /-- A command word at the command port (R69). -/
  | command (w : Nat)
  /-- The one-bit tick strobe (R73). -/
  | strobe (level : BitVec 1)
  /-- The reset line, with the static parameter COUNT that accompanies it (R73). -/
  | resetLine (level : BitVec 1) (count : Nat)
deriving DecidableEq, Repr

/-- Why an input is no instruction. -/
inductive DecodeError where
  /-- The number has more than `28 + IDXW` bits: no command word (R69). -/
  | tooWide
  /-- `op` is 0x0 or 0x7 to 0xF (R72). -/
  | reservedOp (op : BitVec 4)
  /-- A field the opcode map marks "must be 0" is not 0 (R70, R72). -/
  | nonZeroField (op : BitVec 4)
  /-- The strobe or the reset line is low: no event is there (R73). -/
  | lineLow
deriving DecidableEq, Repr

/-- The three fields of a command word (R68, R69). -/
structure CommandFields where
  op : BitVec 4
  idx : Nat
  dat : BitVec 24
deriving DecidableEq, Repr

/-- The fields of a command word: `op` at the top, `dat` at the bottom, `idx` of `idxw` bits between (R69). -/
def splitCommand (idxw w : Nat) : CommandFields :=
  { op := BitVec.ofNat 4 (w / 2 ^ (24 + idxw))
    idx := w / 2 ^ 24 % 2 ^ idxw
    dat := BitVec.ofNat 24 w }

/-- `op ∥ idx ∥ dat` (R69). -/
def joinCommand (idxw : Nat) (f : CommandFields) : Nat :=
  (f.op.toNat * 2 ^ idxw + f.idx) * 2 ^ 24 + f.dat.toNat

/-- The instruction, if its "must be 0" fields are 0 (R72). -/
def ifZero (mustBeZero : Bool) (op : BitVec 4) (i : Instr) : Except DecodeError Instr :=
  if mustBeZero then .ok i else .error (.nonZeroField op)

/-- The opcode map (R70) and the operand assembly (R71). -/
def decodeFields (f : CommandFields) : Except DecodeError Instr :=
  match f.op.toNat with
  | 1 => ifZero (f.idx == 0 && f.dat == 0) f.op .begin
  | 2 => ifZero (f.idx == 0 && f.dat.extractLsb' 7 17 == 0) f.op (.setrate (f.dat.extractLsb' 0 7))
  | 3 => ifZero (f.idx == 0 && f.dat == 0) f.op .pixcount
  | 4 => .ok (.setpixRgb f.idx (f.dat.extractLsb' 16 8) (f.dat.extractLsb' 8 8) (f.dat.extractLsb' 0 8))
  | 5 => ifZero (f.dat.extractLsb' 16 8 == 0) f.op (.setpixPacked f.idx (f.dat.extractLsb' 0 16))
  | 6 => ifZero (f.idx == 0 && f.dat == 0) f.op .refresh
  | _ => .error (.reservedOp f.op)

/-- A command word of `28 + idxw` bits (R69, R72). -/
def decodeCommand (idxw w : Nat) : Except DecodeError Instr :=
  if w < 2 ^ (28 + idxw) then decodeFields (splitCommand idxw w) else .error .tooWide

/-- The decoder, total on every input: the instruction, or why there is none (R70 to R73). -/
def decode (idxw : Nat) : PortInput → Except DecodeError Instr
  | .command w => decodeCommand idxw w
  | .strobe level => if level = 1#1 then .ok .tick else .error .lineLow
  | .resetLine level count => if level = 1#1 then .ok (.construct count) else .error .lineLow

/-- The input that stands for an instruction, written from the "Encoding" line of its rule (R70, R73). -/
def encode (idxw : Nat) : Instr → PortInput
  | .begin => .command (joinCommand idxw ⟨0x1#4, 0, 0#24⟩)
  | .setrate percent => .command (joinCommand idxw ⟨0x2#4, 0, 0#17 ++ percent⟩)
  | .pixcount => .command (joinCommand idxw ⟨0x3#4, 0, 0#24⟩)
  | .setpixRgb index r g b => .command (joinCommand idxw ⟨0x4#4, index, r ++ g ++ b⟩)
  | .setpixPacked index v => .command (joinCommand idxw ⟨0x5#4, index, 0#8 ++ v⟩)
  | .refresh => .command (joinCommand idxw ⟨0x6#4, 0, 0#24⟩)
  | .tick => .strobe 1#1
  | .construct count => .resetLine 1#1 count

/-- The input that `nbits` table bits of value `w` stand for, in the reference configuration. The two events have the
same one-bit pattern in spec/opcode_table.json and differ only in their wire (R73), which the number does not name:
the pattern is read as the tick strobe (log 15). A wider pattern is a command word. -/
def tableInput (nbits w : Nat) : PortInput :=
  if nbits ≤ 8 then .strobe (if w = 1 then 1#1 else 0#1) else .command w

/-- The instruction the decoder reads from a word of spec/opcode_table.json (log 15, log 21). -/
def decodeTableWord (nbits w : Nat) : Option Instr :=
  match decode Config.referenceIdxw (tableInput nbits w) with
  | .ok i => some i
  | .error _ => none

end Sys2Proof
end

