-- ==== Sys2Proof/Machine/State.lean ====
section
/-! DEFINITION. The state of the block (10_state.md), the reasons a step can stop, and the state after reset. -/

namespace Sys2Proof.Machine

/-- The Pixel Store (R29, R40): pairs of a word index and the 16-bit word there, in one canonical form (`Memory.wf`):
indices strictly rising, no word equal to what an unlisted index reads as (log 12). -/
abbrev Memory := List (Nat × Word)

/-- The state of the foreground command port (R31). -/
inductive Fg where
  /-- No command is in progress. -/
  | ready
  /-- An in-range SETPIX has been issued and waits for `streaming = 0`. -/
  | waitGate (i : Nat) (w : Word)
  /-- The gate has been passed and the write has not been performed. -/
  | granted (i : Nat) (w : Word)
deriving DecidableEq, Repr

/-- One event of the platform trace (R13, R32). -/
inductive PlatEvent where
  /-- `Cfg(o, c, d)`: the bus transport was configured. -/
  | cfg (bitOrder clockPolarity clockDivider : Nat)
  /-- `Period(us)`: the tick source was given a period in microseconds. -/
  | period (us : Nat)
  /-- `Start`: the tick source was started with TICK as its callback. -/
  | start
deriving DecidableEq, Repr

/-- The completion of one command (R74). -/
inductive Response where
  /-- `done`, with no value. -/
  | done
  /-- `done` with the value PIXCOUNT returns. -/
  | doneValue (v : Nat)
deriving DecidableEq, Repr

/-- Who moves next (R8, R9): an input from outside the block, one per step (log 7). -/
inductive Turn where
  /-- The foreground: it issues its next command, or goes on with the SETPIX in progress. -/
  | foreground
  /-- The tick source drives the tick strobe (R73). -/
  | strobe (level : BitVec 1)
  /-- The reset line is driven, with the static parameter COUNT (R73, R150). -/
  | resetLine (level : BitVec 1) (count : Nat)
deriving DecidableEq, Repr

/-- The state. The first ten fields are all the state the spec gives the block (R20); `resp` is the block's completion
output (R11, R74); the last four are the model's own. -/
structure State where
  /-- `COUNT`, the number of words in the Pixel Store (R21). -/
  count : Nat
  /-- The Pixel Store (R29). -/
  buf : Memory
  /-- The state of the transmission state machine: set means Streaming (R24). -/
  streaming : Bool
  /-- The request flag (R25). -/
  refreshRequested : Bool
  /-- The read cursor (R22). Meaningless while `streaming` is clear. -/
  position : Nat
  /-- The rate in percent (R26). -/
  rate : BitVec 7
  /-- The tick source has been started (R27). -/
  started : Bool
  /-- The foreground command port (R31). -/
  fg : Fg
  /-- Every byte handed to the bus transport since reset, in order (R32). -/
  bus : List Byte
  /-- Every platform event since reset, in order (R32). -/
  plat : List PlatEvent
  /-- Every completion since reset, in order (R74; log 11). -/
  resp : List Response
  /-- The parameter `IDXW` (R6, D1), which no step changes (log 1). -/
  idxw : Nat
  /-- Who moves in the coming steps, next first (log 7). -/
  turns : List Turn
  /-- The command words the foreground has still to issue, next first (log 7). -/
  cmds : List Nat
  /-- The counter from which a free value is taken (log 3). -/
  freeCtr : Nat
deriving DecidableEq, Repr

/-- Faults. The spec's own set of exceptions is empty (R130). -/
inductive Fault where
  /-- Raised by MemRead and MemWrite for an index outside `0 .. COUNT-1`, where R40 leaves both undefined. No state that
  meets the invariant of R34 raises it. Safe: the model stops (log 13). -/
  | noSuchPixel
deriving DecidableEq, Repr

/-- Refusals: inputs to which the spec gives no meaning ("refuse", R13). -/
inductive Refusal where
  /-- Raised by an arm of `exec` that has no meaning yet. Safe: the model stops. No arm raises it. -/
  | notModelled (mnemonic : String)
  /-- Raised by the step for a reserved command word (R72). Safe: the model stops. -/
  | reservedWord (e : DecodeError)
  /-- Raised by BEGIN when `started = 1` (R123). Safe: the model stops. -/
  | secondBegin
  /-- Raised by SETRATE for a percent outside 1 to 100 (R128). Safe: the model stops. -/
  | percentOutOfRange
  /-- Raised by CONSTRUCT for a count outside `1 .. 2^IDXW - 1` (R121). Safe: the model stops. -/
  | countOutOfRange
  /-- Raised by TICK in Streaming with no word at the cursor (R85). Safe: the model stops. -/
  | noWordAtCursor
  /-- Raised by the step when `turns` is empty: nothing says who moves next (log 7). Safe: the model stops. -/
  | noTurn
deriving DecidableEq, Repr

/-- The block right after reset (R35, R151): the Pixel Store all black (nothing listed), Idle, no request, rate at its
open reset value, tick source not started, port ready, traces empty. `count`, `position` and `idxw` are the model's
choices (log 2, log 3, log 1); no turn and no command is given (log 16). -/
def State.reset : State where
  count := Config.resetCount
  buf := []
  streaming := false
  refreshRequested := false
  position := 0
  rate := Config.rateReset
  started := false
  fg := .ready
  bus := []
  plat := []
  resp := []
  idxw := Config.referenceIdxw
  turns := []
  cmds := []
  freeCtr := 0

end Sys2Proof.Machine
end

