-- ==== Sys2Proof/Machine/Flags.lean ====
section
/-! DEFINITION. The two flags of the block (R24, R25): who sets and clears them, and what they decide. The block has no
arithmetic condition codes (R25, R111). -/

namespace Sys2Proof.Machine

/-- REFRESH sets the request flag (R25, R124). -/
def setRefresh (s : State) : State := { s with refreshRequested := true }

/-- The START tick clears the request flag (R25, R82). -/
def clearRefresh (s : State) : State := { s with refreshRequested := false }

/-- The START tick enters Streaming (R24, R82). -/
def setStreaming (s : State) : State := { s with streaming := true }

/-- The LAST tick returns to Idle (R24, R84). -/
def clearStreaming (s : State) : State := { s with streaming := false }

/-- The gate of a held SETPIX is open exactly when no pass is running (R53, R104): it looks at `streaming` alone. -/
def gateOpen (s : State) : Bool := !s.streaming

end Sys2Proof.Machine
end

