-- ==== Sys2Proof/Machine/Operands.lean ====
section
/-! DEFINITION. The operand computations of the block, which are all the arithmetic it performs (R111): packing of
colour words, selection of bus bytes, the index and percent ranges, and the tick period. -/

namespace Sys2Proof.Machine

/-- A channel masked to its low five bits, at word width (R61). -/
def channel (c : BitVec 8) : Word := (c &&& 0x1F#8).setWidth 16

/-- `PackRGB(r, g, b)` (R61): marker, green, blue, red. -/
def packRgb (r g b : BitVec 8) : Word :=
  0x8000#16 ||| (channel g <<< 10) ||| (channel b <<< 5) ||| channel r

/-- `PackRaw(v)` (R62): the marker bit forced on. -/
def packRaw (v : BitVec 16) : Word := v ||| 0x8000#16

/-- Black (R64). -/
def black : Word := packRaw 0#16

/-- `Unpack(w) = (r, g, b)` (R63), each field 5 bits. The block itself never unpacks. -/
def unpack (w : Word) : BitVec 5 × BitVec 5 × BitVec 5 :=
  (w.extractLsb' 0 5, w.extractLsb' 10 5, w.extractLsb' 5 5)

/-- The marker bit of a word, bit 15 (R60). -/
def marked (w : Word) : Bool := w.getLsbD 15

/-- `w[15:8]`, sent first (R65). -/
def highByte (w : Word) : Byte := w.extractLsb' 8 8

/-- `w[7:0]`, sent second (R65). -/
def lowByte (w : Word) : Byte := w.extractLsb' 0 8

/-- The two bytes of a word in bus order (R41, R65). -/
def busBytes (w : Word) : List Byte := [highByte w, lowByte w]

/-- The filler byte (R66). -/
def filler : Byte := 0x00#8

/-- A percent SETRATE may be given: 1 to 100 (R126, R128). -/
def percentLegal (percent : BitVec 7) : Bool :=
  decide (1 ≤ percent.toNat) && decide (percent.toNat ≤ 100)

/-- A count CONSTRUCT may be given at index width `idxw`: `1 .. 2^IDXW - 1` (R121). -/
def countLegal (idxw count : Nat) : Bool :=
  decide (1 ≤ count) && decide (count < 2 ^ idxw)

/-- `floor(100 * p100 / p)` microseconds, for a period `p100` at `rate = 100` (R127). -/
def periodWith (p100 : Nat) (p : BitVec 7) : Nat := 100 * p100 / p.toNat

/-- `PeriodOf(p) = floor(100 * P100_US / p)` microseconds (R127). -/
def periodOf (p : BitVec 7) : Nat := periodWith Config.p100Us p

end Sys2Proof.Machine
end

