-- ==== Sys2Proof/Machine/Ops.lean ====
section
/-! DEFINITION. The named operations over memory, registers and the platform services: the pseudocode primitives of
00_scope.md R13, the completion of a command (R74), the waiting of a command at a port in use (R68), and the taking of
the tick interrupt with the return from it (R132 to R136). -/

namespace Sys2Proof.Machine

/-- The word at an index: a listed one, or black, the reset contents (R29, R40). -/
def Memory.read : Memory → Nat → Word
  | [], _ => black
  | (a, w) :: m, i => if a = i then w else Memory.read m i

/-- Put a word in front, unless it is what the unlisted index reads as. -/
def Memory.cons (i : Nat) (v : Word) (m : Memory) : Memory :=
  if v = black then m else (i, v) :: m

/-- `buf[i] <- v` (R40), keeping the canonical form. -/
def Memory.write : Memory → Nat → Word → Memory
  | [], i, v => Memory.cons i v []
  | (a, w) :: m, i, v =>
    if a < i then (a, w) :: Memory.write m i v
    else if a = i then Memory.cons i v m
    else Memory.cons i v ((a, w) :: m)

/-- The canonical form from index `lo` on: indices strictly rising, none below `lo`, no black word listed. -/
def Memory.wfFrom : Nat → Memory → Bool
  | _, [] => true
  | lo, (a, w) :: m => decide (lo ≤ a) && (w != black) && Memory.wfFrom (a + 1) m

/-- The canonical form of the Pixel Store (log 12). -/
def Memory.wf (m : Memory) : Bool := Memory.wfFrom 0 m

/-- `MemRead(i, 2)` (R13, R40): no value outside `0 .. COUNT-1`. -/
def memRead (s : State) (i : Nat) : Option Word :=
  if i < s.count then some (Memory.read s.buf i) else none

/-- `MemWrite(i, 2, v)` (R13, R40): a fault outside `0 .. COUNT-1` (log 13). -/
def memWrite (s : State) (i : Nat) (v : Word) : Host.Outcome State Fault Refusal :=
  if i < s.count then .next { s with buf := Memory.write s.buf i v } else .fault .noSuchPixel

/-- `BusXfer(b)` (R13): append to the bus trace. -/
def busXfer (s : State) (b : Byte) : State := { s with bus := s.bus ++ [b] }

/-- A word onto the bus: high byte, then low byte (R65). -/
def busXferWord (s : State) (w : Word) : State := busXfer (busXfer s (highByte w)) (lowByte w)

/-- `BusConfigure(o, c, d)` (R13). -/
def busConfigure (s : State) (o c d : Nat) : State := { s with plat := s.plat ++ [.cfg o c d] }

/-- `TickSetPeriod(us)` (R13). -/
def tickSetPeriod (s : State) (us : Nat) : State := { s with plat := s.plat ++ [.period us] }

/-- `TickStart()` (R13): the event; BEGIN sets `started` itself (R122). -/
def tickStart (s : State) : State := { s with plat := s.plat ++ [.start] }

/-- `started <- 1` (R27, R122). -/
def setStarted (s : State) : State := { s with started := true }

/-- `rate <- p` (R26, R126). -/
def setRate (s : State) (p : BitVec 7) : State := { s with rate := p }

/-- `position <- v` (R22). -/
def setPosition (s : State) (v : Nat) : State := { s with position := v }

/-- `fg <- v` (R31). -/
def setFg (s : State) (v : Fg) : State := { s with fg := v }

/-- A command completes: the `done` event, with the value PIXCOUNT returns (R74). -/
def complete (s : State) (r : Response) : State := { s with resp := s.resp ++ [r] }

/-- A command is issued only when `fg = Ready` (R9, R68, D26). At a port in use it waits: nothing changes (log 9). -/
def whenReady (s : State) (issue : Host.Outcome State Fault Refusal) : Host.Outcome State Fault Refusal :=
  match s.fg with
  | .ready => issue
  | .waitGate _ _ => .next s
  | .granted _ _ => .next s

/-- The end of the callback: nothing is restored, the foreground goes on where it was (R136). -/
def returnFromTick (s : State) : Host.Outcome State Fault Refusal := .next s

/-- Taking the one interrupt, the tick (R132 to R135): delivered exactly when `started = 1`; the entry saves nothing
and changes nothing, and control goes to the one registered callback. A strobe before the tick source is started is
not delivered: no step, the state unchanged (R27, V-TK10; log 8). -/
def takeTick (s : State) (callback : State → Host.Outcome State Fault Refusal) :
    Host.Outcome State Fault Refusal :=
  match s.started with
  | true => callback s
  | false => .next s

end Sys2Proof.Machine
end

