-- ==== Sys2Proof/Machine/Controller.lean ====
section
/-! DEFINITION. The controller operations of 42_controller_ops.md: BEGIN, SETRATE, REFRESH, CONSTRUCT. -/

namespace Sys2Proof.Machine

/-- BEGIN (R122): configure the bus, program the period of the current rate, start the tick source. A second BEGIN is
refused (R123). -/
def execBegin (s : State) : Host.Outcome State Fault Refusal :=
  whenReady s <|
    match s.started with
    | true => .refused .secondBegin
    | false =>
      let configured := busConfigure s Config.busBitOrder Config.busCpol Config.busClkDiv
      let timed := tickSetPeriod configured (periodOf s.rate)
      .next (complete (setStarted (tickStart timed)) .done)

/-- SETRATE percent (R126): store the rate and program its period (R127). Outside 1 to 100 it is refused (R128). -/
def execSetrate (percent : BitVec 7) (s : State) : Host.Outcome State Fault Refusal :=
  whenReady s <|
    match percentLegal percent with
    | true => .next (complete (tickSetPeriod (setRate s percent) (periodOf percent)) .done)
    | false => .refused .percentOutOfRange

/-- REFRESH (R124): set the request flag, nothing else. -/
def execRefresh (s : State) : Host.Outcome State Fault Refusal :=
  whenReady s <| .next (complete (setRefresh s) .done)

/-- CONSTRUCT count (R120): the reset of the block, whatever its state. `position` becomes a free value of `IDXW` bits
(log 3); what belongs to the outside (`idxw`, `turns`, `cmds`) stays (log 17). A bad count is refused (R121). -/
def execConstruct (count : Nat) (s : State) : Host.Outcome State Fault Refusal :=
  match countLegal s.idxw count with
  | true => .next
      { s with
        count := count
        buf := []
        streaming := false
        refreshRequested := false
        position := Config.freePosition s.freeCtr % 2 ^ s.idxw
        rate := Config.rateReset
        started := false
        fg := .ready
        bus := []
        plat := []
        resp := []
        freeCtr := s.freeCtr + 1 }
  | false => .refused .countOutOfRange

end Sys2Proof.Machine
end

