-- ==== Sys2Proof/Machine/PixelStore.lean ====
section
/-! DEFINITION. The Pixel Store operations of 41_pixel_store_ops.md: SETPIX_RGB, SETPIX_PACKED with their internal steps
GATE and WRITE, and PIXCOUNT. -/

namespace Sys2Proof.Machine

/-- `SetPixCommon(index, w)` (R103), the issue step of both forms: an index out of range completes at once with no
change; an index in range makes the command wait at the gate. -/
def setPixCommon (index : Nat) (w : Word) (s : State) : Host.Outcome State Fault Refusal :=
  if s.count ≤ index then .next (complete s .done) else .next (setFg s (.waitGate index w))

/-- SETPIX_RGB index, r, g, b, its issue step (R100). -/
def execSetpixRgb (index : Nat) (r g b : BitVec 8) (s : State) : Host.Outcome State Fault Refusal :=
  whenReady s <| setPixCommon index (packRgb r g b) s

/-- SETPIX_PACKED index, v, its issue step (R102). -/
def execSetpixPacked (index : Nat) (v : BitVec 16) (s : State) : Host.Outcome State Fault Refusal :=
  whenReady s <| setPixCommon index (packRaw v) s

/-- PIXCOUNT (R110): return COUNT; no state changes. -/
def execPixcount (s : State) : Host.Outcome State Fault Refusal :=
  whenReady s <| .next (complete s (.doneValue s.count))

/-- GATE (R104) with `fg = WaitGate(i, w)`: pass the gate if it is open. While it is closed the foreground has no step
(R105): a reading of `streaming = 1` changes nothing (log 10). -/
def gateStep (i : Nat) (w : Word) (s : State) : Host.Outcome State Fault Refusal :=
  match gateOpen s with
  | true => .next (setFg s (.granted i w))
  | false => .next s

/-- WRITE (R106) with `fg = Granted(i, w)`: one indivisible store, and the command completes. -/
def writeStep (i : Nat) (w : Word) (s : State) : Host.Outcome State Fault Refusal :=
  match memWrite s i w with
  | .next written => .next (complete (setFg written .ready) .done)
  | .fault r => .fault r
  | .refused r => .refused r

/-- The foreground goes on with the SETPIX in progress; with none in progress and no command to issue it takes no step
(log 10). -/
def resumeForeground (s : State) : Host.Outcome State Fault Refusal :=
  match s.fg with
  | .ready => .next s
  | .waitGate i w => gateStep i w s
  | .granted i w => writeStep i w s

end Sys2Proof.Machine
end

