-- ==== Sys2Proof/Machine/Tick.lean ====
section
/-! DEFINITION. TICK, the one operation of the tick agent, with its cases IDLE, START, WORD and LAST
(40_transmission_state_machine.md). -/

namespace Sys2Proof.Machine

/-- Case IDLE (R81): one filler byte. -/
def tickIdle (s : State) : State := busXfer s filler

/-- Case START (R82): clear the request, send the preamble, reset the cursor, enter Streaming. -/
def tickStartPass (s : State) : State := setStreaming (setPosition (busXfer (clearRefresh s) filler) 0)

/-- What WORD and LAST share (R83, R84, R89): send the word at the cursor, advance the cursor. -/
def tickSendWord (w : Word) (s : State) : State := setPosition (busXferWord s w) (s.position + 1)

/-- A tick in Idle (R80): IDLE or START. -/
def tickInIdle (s : State) : Host.Outcome State Fault Refusal :=
  match s.refreshRequested with
  | false => returnFromTick (tickIdle s)
  | true => returnFromTick (tickStartPass s)

/-- A tick in Streaming with the word `w` at the cursor (R80): LAST if the cursor has reached COUNT, else WORD. -/
def tickInPass (w : Word) (s : State) : Host.Outcome State Fault Refusal :=
  if s.position + 1 = s.count then returnFromTick (clearStreaming (tickSendWord w s))
  else returnFromTick (tickSendWord w s)

/-- The callback (R80). A Streaming tick with no word at the cursor is refused (R85). -/
def tickCallback (s : State) : Host.Outcome State Fault Refusal :=
  match s.streaming with
  | false => tickInIdle s
  | true =>
    match memRead s s.position with
    | some w => tickInPass w s
    | none => .refused .noWordAtCursor

/-- TICK (R80), enabled exactly when `started = 1`. -/
def execTick (s : State) : Host.Outcome State Fault Refusal := takeTick s tickCallback

end Sys2Proof.Machine
end

