-- ==== Sys2Proof/Machine/Dispatch.lean ====
section
/-! DEFINITION. The meaning of each instruction, by one arm per constructor. -/

namespace Sys2Proof.Machine

/-- The meaning of an instruction. -/
def exec (i : Instr) (s : State) : Host.Outcome State Fault Refusal :=
  match i with
  | .begin => Sys2Proof.Machine.execBegin s
  | .setrate percent => Sys2Proof.Machine.execSetrate percent s
  | .pixcount => Sys2Proof.Machine.execPixcount s
  | .setpixRgb index r g b => Sys2Proof.Machine.execSetpixRgb index r g b s
  | .setpixPacked index v => Sys2Proof.Machine.execSetpixPacked index v s
  | .refresh => Sys2Proof.Machine.execRefresh s
  | .tick => Sys2Proof.Machine.execTick s
  | .construct count => Sys2Proof.Machine.execConstruct count s

end Sys2Proof.Machine
end

