-- ==== Sys2Proof/Machine/Fetch.lean ====
section
/-! DEFINITION. Where the next instruction comes from: the block has no program counter (R23); the turn at the head of
`turns` says which input moves next, and the foreground takes its commands from `cmds` (R8, R68, R73; log 7). -/

namespace Sys2Proof.Machine

/-- What the next step does, with the state after the turn (and the command) is taken. -/
inductive Fetched where
  /-- No turn is left. -/
  | noTurn
  /-- The foreground goes on with a SETPIX in progress, or has nothing to issue. -/
  | resume (s : State)
  /-- An input stands at a port. -/
  | input (p : PortInput) (s : State)
deriving DecidableEq, Repr

/-- The foreground's turn, already taken from `turns`: with `fg = Ready` it presents its next command (R68, D26). -/
def fetchForeground (s : State) : Fetched :=
  match s.fg, s.cmds with
  | .ready, w :: cmds => .input (.command w) { s with cmds := cmds }
  | .ready, [] => .resume s
  | .waitGate _ _, _ => .resume s
  | .granted _ _, _ => .resume s

/-- Take the next turn. -/
def fetch (s : State) : Fetched :=
  match s.turns with
  | [] => .noTurn
  | .foreground :: turns => fetchForeground { s with turns := turns }
  | .strobe level :: turns => .input (.strobe level) { s with turns := turns }
  | .resetLine level count :: turns => .input (.resetLine level count) { s with turns := turns }

/-- What an input that is no instruction does: a low line is no event, and nothing changes (R73); any other is refused
(R72). -/
def rejectInput (e : DecodeError) (s : State) : Host.Outcome State Fault Refusal :=
  match e with
  | .lineLow => .next s
  | .tooWide => .refused (.reservedWord .tooWide)
  | .reservedOp op => .refused (.reservedWord (.reservedOp op))
  | .nonZeroField op => .refused (.reservedWord (.nonZeroField op))

/-- Place the input that a table word stands for where the next step takes it: the turn, and for a command the word at
the port. The port must be ready to take a command (R68), and the tick source started to deliver a tick (R141); nothing
else changes (log 16). -/
def placeInput (s : State) (p : PortInput) : State :=
  match p with
  | .command w => { s with turns := .foreground :: s.turns, cmds := w :: s.cmds, fg := .ready }
  | .strobe level => { s with turns := .strobe level :: s.turns, started := true }
  | .resetLine level count => { s with turns := .resetLine level count :: s.turns }

end Sys2Proof.Machine
end

