-- ==== Sys2Proof/Machine/Step.lean ====
section
/-! DEFINITION. One step of the machine: take the next turn, decode what it presents, run it (R9). -/

namespace Sys2Proof.Machine

/-- One atomic step (R9). -/
def step (s : State) : Host.Outcome State Fault Refusal :=
  match fetch s with
  | .noTurn => .refused .noTurn
  | .resume s' => resumeForeground s'
  | .input p s' =>
    match decode s'.idxw p with
    | .ok i => exec i s'
    | .error e => rejectInput e s'

/-- `s` with the instruction of a table word where the next step takes it (log 15, log 16). -/
def State.withFetchWord (s : State) (nbits w : Nat) : State := placeInput s (tableInput nbits w)

end Sys2Proof.Machine
end

