-- ==== Sys2Proof/Safety.lean ====
section
/-! DEFINITION. What counts as a good state and a good run, in the terms the statements use: the invariant of R33 and
R34, the framing of the bus trace (R67), iterated ticks, and the timing contract of the platform (R7). -/

namespace Sys2Proof.Machine

/-- The command port holds an in-range index and a marked word (R31, R34). -/
def Fg.ok (count : Nat) : Fg → Bool
  | .ready => true
  | .waitGate i w => decide (i < count) && marked w
  | .granted i w => decide (i < count) && marked w

/-- The invariant of R33 and R34, with the canonical form of the Pixel Store and the width of `position`. -/
structure Inv (s : State) : Prop where
  /-- `1 <= COUNT <= 2^IDXW - 1` (R21). -/
  count_legal : countLegal s.idxw s.count = true
  /-- The Pixel Store is in its canonical form. -/
  store_wf : Memory.wf s.buf = true
  /-- Nothing is stored outside `0 .. COUNT-1` (R29, R47). -/
  store_in_range : ∀ c ∈ s.buf, c.1 < s.count
  /-- Every stored word has its marker bit set (R33). -/
  store_marked : ∀ c ∈ s.buf, marked c.2 = true
  /-- `streaming = 1` implies `started = 1` (R34). -/
  pass_started : s.streaming = true → s.started = true
  /-- `streaming = 1` implies `position < COUNT` (R34). -/
  cursor_in_range : s.streaming = true → s.position < s.count
  /-- `position` has `IDXW` bits (R22). -/
  cursor_width : s.position < 2 ^ s.idxw
  /-- The port holds an in-range index and a marked word (R34). -/
  port_ok : Fg.ok s.count s.fg = true
  /-- `rate` is in 1 to 100 (R34). -/
  rate_legal : percentLegal s.rate = true

/-- The bytes of a list of words in bus order (R65). -/
def dataBytes (ws : List Word) : List Byte := ws.flatMap busBytes

/-- A bus trace made of whole units (R67): lone filler bytes, and passes of one preamble and `count` marked words. -/
inductive WholeUnits (count : Nat) : List Byte → Prop where
  /-- Nothing sent yet. -/
  | empty : WholeUnits count []
  /-- One more filler byte of an IDLE tick. -/
  | idle {bytes : List Byte} : WholeUnits count bytes → WholeUnits count (bytes ++ [filler])
  /-- One more whole pass. -/
  | pass {bytes : List Byte} (ws : List Word) : WholeUnits count bytes → ws.length = count →
      (∀ w ∈ ws, marked w = true) → WholeUnits count (bytes ++ filler :: dataBytes ws)

/-- The framing of the bus trace (R67): whole units in Idle; in Streaming, whole units followed by the preamble and the
words of the running pass sent so far, `position` of them, both bytes of each. -/
def BusFramed (s : State) : Prop :=
  match s.streaming with
  | false => WholeUnits s.count s.bus
  | true => ∃ bytes ws, WholeUnits s.count bytes ∧ ws.length = s.position ∧ (∀ w ∈ ws, marked w = true) ∧
      s.bus = bytes ++ filler :: dataBytes ws

/-- `n` ticks one after the other, with no foreground step between them. -/
def ticks : Nat → State → Host.Outcome State Fault Refusal
  | 0, s => .next s
  | n + 1, s =>
    match exec .tick s with
    | .next t => ticks n t
    | .fault r => .fault r
    | .refused r => .refused r

/-- `n` steps one after the other, stopping at the first that answers no next state. -/
def steps : Nat → State → Host.Outcome State Fault Refusal
  | 0, s => .next s
  | n + 1, s =>
    match step s with
    | .next t => steps n t
    | .fault r => .fault r
    | .refused r => .refused r

/-- The words of the Pixel Store from index `i` on, `n` of them. -/
def storeWords (m : Memory) : Nat → Nat → List Word
  | _, 0 => []
  | i, n + 1 => Memory.read m i :: storeWords m (i + 1) n

/-- A turn that is not a reset. -/
def Turn.isReset : Turn → Bool
  | .foreground => false
  | .strobe _ => false
  | .resetLine _ _ => true

/-- No reset is to come. -/
def noReset (s : State) : Prop := ∀ turn ∈ s.turns, Turn.isReset turn = false

/-- A pass runs at every step boundary of the first `n` steps (or the run stops before). -/
def passRunsThrough (n : Nat) (s : State) : Prop :=
  ∀ m ≤ n, ∀ u : State, steps m s = .next u → u.streaming = true

/-- The commands of the command port, as against the two events (R70, R73). -/
def isCommand : Instr → Bool
  | .begin => true
  | .setrate _ => true
  | .pixcount => true
  | .setpixRgb _ _ _ _ => true
  | .setpixPacked _ _ => true
  | .refresh => true
  | .tick => false
  | .construct _ => false

/-- H-PERIOD (R7, R160) for a period `p100` at `rate = 100`, a byte time and a bookkeeping time: the tick period of rate
`p` exceeds the longest callback. The two times are whole microseconds (DESIGN CHOICE, log 24). -/
def hPeriod (p100 tXfer tBook : Nat) (p : BitVec 7) : Prop := 2 * tXfer + tBook < periodWith p100 p

/-- H-PERIOD for this platform: an obligation on whoever configures it, which the block does not check (R131, R160), and
a premise of every claim that is read as one about a device (D25; log 19). -/
def platformKeepsHPeriod : Prop :=
  ∀ p : BitVec 7, percentLegal p = true → hPeriod Config.p100Us Config.tXferUs Config.tBookUs p

end Sys2Proof.Machine
end

