-- ==== Sys2Proof/Certificates/Slice0/Obligations.lean ====
section
/-! DEFINITION. The statements about the model, for the provers. Each docstring names the rule of spec/ it formalises, or
says what is the model's own choice. `.next { s with f := v }` is a whole result: every field of the state that is not
named (each word of the Pixel Store, each flag, register and trace) is unchanged. -/

open Sys2Proof Sys2Proof.Machine

/-! ## Encoding -/

/-- Decoding the encoding of an instruction whose index fits in `IDXW` bits gives the instruction back, at every index
width and with every operand at every value (R69 to R71, R73). -/
def Obligations.DecodeOfEncodeIsTheInstruction : Prop :=
  ∀ (idxw : Nat) (i : Instr), i.wf idxw = true → decode idxw (encode idxw i) = .ok i

/-- Each word has one meaning: an input that decodes to an instruction is the encoding of that instruction, which is well
formed (R69 to R73). -/
def Obligations.EncodeOfDecodeIsTheInput : Prop :=
  ∀ (idxw : Nat) (p : PortInput) (i : Instr), decode idxw p = .ok i → i.wf idxw = true ∧ encode idxw i = p

/-- Command words written out in 95_test_vectors.md 2.3 (V-CW2, V-CW6, V-CW8, V-CW9, V-CW11) decode to what stands beside
them there, and a reserved one (V-CW12) to nothing. -/
def Obligations.VectorWordsDecodeAsListed : Prop :=
  decodeTableWord 48 0x20000000032 = some (.setrate 50#7) ∧
  decodeTableWord 48 0x400021F0000 = some (.setpixRgb 2 31#8 0#8 0#8) ∧
  decodeTableWord 48 0x4FFFF010203 = some (.setpixRgb 0xFFFF 1#8 2#8 3#8) ∧
  decodeTableWord 48 0x50001007C00 = some (.setpixPacked 1 0x7C00#16) ∧
  decodeTableWord 48 0x60000000000 = some .refresh ∧
  decodeTableWord 48 0x00000000000 = none

/-- R70: at `IDXW = 16` a 44-bit word selects a row of the opcode map exactly when its bits under the row's mask are the
row's match, and its operands are the bits the map names. -/
def Obligations.CommandSelectedByMatchAndMask : Prop :=
  ∀ cw : BitVec 44,
    (decode 16 (.command cw.toNat) = .ok .begin ↔ cw &&& 0xFFFFFFFFFFF#44 = 0x10000000000#44) ∧
    (∀ p, decode 16 (.command cw.toNat) = .ok (.setrate p) ↔
      cw &&& 0xFFFFFFFFF80#44 = 0x20000000000#44 ∧ p = cw.extractLsb' 0 7) ∧
    (decode 16 (.command cw.toNat) = .ok .pixcount ↔ cw &&& 0xFFFFFFFFFFF#44 = 0x30000000000#44) ∧
    (∀ i r g b, decode 16 (.command cw.toNat) = .ok (.setpixRgb i r g b) ↔
      cw &&& 0xF0000000000#44 = 0x40000000000#44 ∧ i = (cw.extractLsb' 24 16).toNat ∧
        r = cw.extractLsb' 16 8 ∧ g = cw.extractLsb' 8 8 ∧ b = cw.extractLsb' 0 8) ∧
    (∀ i v, decode 16 (.command cw.toNat) = .ok (.setpixPacked i v) ↔
      cw &&& 0xF0000FF0000#44 = 0x50000000000#44 ∧ i = (cw.extractLsb' 24 16).toNat ∧ v = cw.extractLsb' 0 16) ∧
    (decode 16 (.command cw.toNat) = .ok .refresh ↔ cw &&& 0xFFFFFFFFFFF#44 = 0x60000000000#44)

/-- R72: a word of the command port with a reserved `op`, or with a bit set in a field that must be 0, is refused by the
step that takes it; SETRATE with any percent decodes as SETRATE. -/
def Obligations.ReservedWordIsRefused : Prop :=
  (∀ (s : State) (w : Nat) (turns : List Turn) (cmds : List Nat) (f : CommandFields),
    s.turns = .foreground :: turns → s.fg = .ready → s.cmds = w :: cmds →
    w < 2 ^ (28 + s.idxw) → f = splitCommand s.idxw w →
    (f.op.toNat = 0 ∨ 7 ≤ f.op.toNat ∨
      ((f.op = 0x1#4 ∨ f.op = 0x3#4 ∨ f.op = 0x6#4) ∧ (f.idx ≠ 0 ∨ f.dat ≠ 0#24)) ∨
      (f.op = 0x2#4 ∧ (f.idx ≠ 0 ∨ f.dat.extractLsb' 7 17 ≠ 0#17)) ∨
      (f.op = 0x5#4 ∧ f.dat.extractLsb' 16 8 ≠ 0#8)) →
    ∃ e, step s = .refused (.reservedWord e)) ∧
  (∀ (idxw : Nat) (p : BitVec 7), decode idxw (encode idxw (.setrate p)) = .ok (.setrate p))

/-! ## Packing and arithmetic -/

/-- R61: the fields of `PackRGB(r, g, b)` are the marker 1, and the low five bits of green, blue and red. -/
def Obligations.PackRgbFieldsAreMaskedChannels : Prop :=
  ∀ r g b : BitVec 8,
    packRgb r g b = 0x8000#16 ||| ((g &&& 0x1F#8).setWidth 16 <<< 10) ||| ((b &&& 0x1F#8).setWidth 16 <<< 5) |||
      (r &&& 0x1F#8).setWidth 16 ∧
    (packRgb r g b).getLsbD 15 = true ∧
    (packRgb r g b).extractLsb' 10 5 = g.extractLsb' 0 5 ∧
    (packRgb r g b).extractLsb' 5 5 = b.extractLsb' 0 5 ∧
    (packRgb r g b).extractLsb' 0 5 = r.extractLsb' 0 5

/-- R63: `Unpack(PackRGB(r, g, b))` is the three channels, each masked to 5 bits, and the marker is set. -/
def Obligations.UnpackOfPackRgbIsMaskedChannels : Prop :=
  ∀ r g b : BitVec 8,
    unpack (packRgb r g b) = ((r &&& 0x1F#8).setWidth 5, (g &&& 0x1F#8).setWidth 5, (b &&& 0x1F#8).setWidth 5) ∧
    (packRgb r g b).getLsbD 15 = true

/-- R62 and R64: `PackRaw` forces bit 15 on and passes bits 14:0 through; black is `0x8000`. -/
def Obligations.PackRawForcesTheMarker : Prop :=
  (∀ v : BitVec 16, packRaw v = v ||| 0x8000#16 ∧ (packRaw v).getLsbD 15 = true ∧
    (packRaw v).extractLsb' 0 15 = v.extractLsb' 0 15) ∧
  packRgb 0#8 0#8 0#8 = 0x8000#16 ∧ packRaw 0#16 = 0x8000#16 ∧ black = 0x8000#16

/-- R113: the laws of packing. -/
def Obligations.PackingLaws : Prop :=
  (∀ r g b : BitVec 8, (packRgb r g b).getLsbD 15 = true ∧
    packRgb r g b = packRgb (r &&& 0x1F#8) (g &&& 0x1F#8) (b &&& 0x1F#8) ∧
    packRaw (packRgb r g b) = packRgb r g b) ∧
  (∀ r g b r' g' b' : BitVec 8, packRgb r g b = packRgb r' g' b' ↔
    r.toNat % 32 = r'.toNat % 32 ∧ g.toNat % 32 = g'.toNat % 32 ∧ b.toNat % 32 = b'.toNat % 32) ∧
  (∀ v : BitVec 16, packRaw (packRaw v) = packRaw v ∧ (packRaw v = v ↔ v.getLsbD 15 = true) ∧
    (packRaw v).extractLsb' 0 15 = v.extractLsb' 0 15) ∧
  (∀ w : Word, highByte w ++ lowByte w = w) ∧
  (∀ w : Word, w.getLsbD 15 = true ↔ ∃ r g b, packRgb r g b = w)

/-- R127: `PeriodOf(p) = floor(100 * P100_US / p)`; it is `P100_US` at 100, `100 * P100_US` at 1, and it never rises with
`p`. -/
def Obligations.PeriodOfIsFlooredReciprocal : Prop :=
  (∀ p : BitVec 7, 1 ≤ p.toNat → p.toNat ≤ 100 →
    p.toNat * periodOf p ≤ 100 * Config.p100Us ∧ 100 * Config.p100Us < p.toNat * (periodOf p + 1)) ∧
  periodOf 100#7 = Config.p100Us ∧ periodOf 1#7 = 100 * Config.p100Us ∧
  (∀ p q : BitVec 7, 1 ≤ p.toNat → p.toNat ≤ q.toNat → q.toNat ≤ 100 → periodOf q ≤ periodOf p)

/-- R160, R7: the timing contract is hardest at `rate = 100`: kept there, whatever the platform's times are (whole
microseconds, the model's choice, log 24), it is kept at every legal rate. -/
def Obligations.TimingContractHardestAtFullRate : Prop :=
  ∀ (p100 tXfer tBook : Nat) (p : BitVec 7), percentLegal p = true →
    hPeriod p100 tXfer tBook 100#7 → hPeriod p100 tXfer tBook p

/-! ## The Pixel Store -/

/-- R40, R46: a read after a write gives the word written at that index and the old word at every other, a second write of
the same word changes nothing. That the write keeps the canonical form, and the premise that the store has it, rest on the
model's list representation (the model's choice, log 12), of which the two rules say nothing. -/
def Obligations.StoreReadAfterWrite : Prop :=
  ∀ (m : Memory) (i : Nat) (v : Word), Memory.wf m = true →
    Memory.read (Memory.write m i v) i = v ∧
    (∀ a, a ≠ i → Memory.read (Memory.write m i v) a = Memory.read m a) ∧
    Memory.write (Memory.write m i v) i v = Memory.write m i v ∧
    Memory.wf (Memory.write m i v) = true

/-- The canonical form is one: two Pixel Stores in it that read alike at every index are equal (the model's
representation, log 12). -/
def Obligations.StoresThatReadAlikeAreEqual : Prop :=
  ∀ m m' : Memory, Memory.wf m = true → Memory.wf m' = true → (∀ i, Memory.read m i = Memory.read m' i) → m = m'

/-! ## Commands -/

/-- R122: BEGIN configures the bus, programs the period of the current rate, starts the tick source and sets `started`.
Its completion is R74. -/
def Obligations.BeginStartsTheTickSource : Prop :=
  ∀ s : State, s.fg = .ready → s.started = false →
    exec .begin s = .next { s with
      started := true
      plat := s.plat ++ [.cfg Config.busBitOrder Config.busCpol Config.busClkDiv, .period (periodOf s.rate), .start]
      resp := s.resp ++ [.done] }

/-- R123: BEGIN when `started = 1` is refused. -/
def Obligations.SecondBeginIsRefused : Prop :=
  ∀ s : State, s.fg = .ready → s.started = true → exec .begin s = .refused .secondBegin

/-- R126: SETRATE with a legal percent stores it and programs its period, and changes nothing else. Its completion is
R74. -/
def Obligations.SetrateStoresAndPrograms : Prop :=
  ∀ (s : State) (p : BitVec 7), s.fg = .ready → 1 ≤ p.toNat → p.toNat ≤ 100 →
    exec (.setrate p) s = .next { s with
      rate := p
      plat := s.plat ++ [.period (100 * Config.p100Us / p.toNat)]
      resp := s.resp ++ [.done] }

/-- R128: SETRATE with percent 0 or above 100 is refused, and no instruction puts a rate outside 1 to 100 into `rate`. -/
def Obligations.SetrateOutOfRangeIsRefused : Prop :=
  (∀ (s : State) (p : BitVec 7), s.fg = .ready → (p.toNat = 0 ∨ 100 < p.toNat) →
    exec (.setrate p) s = .refused .percentOutOfRange) ∧
  (∀ (i : Instr) (s t : State), 1 ≤ s.rate.toNat → s.rate.toNat ≤ 100 → exec i s = .next t →
    1 ≤ t.rate.toNat ∧ t.rate.toNat ≤ 100)

/-- R110: PIXCOUNT returns COUNT and changes no state. -/
def Obligations.PixcountReturnsCount : Prop :=
  ∀ s : State, s.fg = .ready →
    exec .pixcount s = .next { s with resp := s.resp ++ [.doneValue s.count] }

/-- R124: REFRESH sets the request flag, whatever `streaming` and `started` are. Its completion is R74. -/
def Obligations.RefreshSetsTheRequest : Prop :=
  ∀ s : State, s.fg = .ready →
    exec .refresh s = .next { s with refreshRequested := true, resp := s.resp ++ [.done] }

/-- R103 (with R100 and R102 for the word): the issue step of both SETPIX forms: an index out of range completes
at once, whatever `streaming` is, with no change; an index in range leaves the command waiting at the gate with its
word. -/
def Obligations.SetpixIssueChecksTheBound : Prop :=
  ∀ (s : State) (index : Nat), s.fg = .ready →
    (s.count ≤ index →
      (∀ r g b : BitVec 8, exec (.setpixRgb index r g b) s = .next { s with resp := s.resp ++ [.done] }) ∧
      (∀ v : BitVec 16, exec (.setpixPacked index v) s = .next { s with resp := s.resp ++ [.done] })) ∧
    (index < s.count →
      (∀ r g b : BitVec 8,
        exec (.setpixRgb index r g b) s = .next { s with fg := .waitGate index (packRgb r g b) }) ∧
      (∀ v : BitVec 16,
        exec (.setpixPacked index v) s = .next { s with fg := .waitGate index (v ||| 0x8000#16) }))

/-- R107 with no tick in between: three foreground turns take an in-range SETPIX through issue, GATE and WRITE while no
pass runs, and the whole effect is the word in the store, read back with its fields. -/
def Obligations.SetpixRgbCompletesInThreeTurns : Prop :=
  ∀ (s : State) (w index : Nat) (r g b : BitVec 8) (turns : List Turn) (cmds : List Nat),
    s.fg = .ready → s.streaming = false → index < s.count → Memory.wf s.buf = true →
    s.turns = .foreground :: .foreground :: .foreground :: turns → s.cmds = w :: cmds →
    decode s.idxw (.command w) = .ok (.setpixRgb index r g b) →
    ∃ t : State, steps 3 s = .next t ∧
      t = { s with
        buf := Memory.write s.buf index (packRgb r g b)
        turns := turns
        cmds := cmds
        resp := s.resp ++ [.done] } ∧
      memRead t index = some (packRgb r g b) ∧
      (∀ a, a ≠ index → memRead t a = memRead s a)

/-- The same of SETPIX_PACKED (R102, R107): the stored word is `v` with its marker forced. -/
def Obligations.SetpixPackedCompletesInThreeTurns : Prop :=
  ∀ (s : State) (w index : Nat) (v : BitVec 16) (turns : List Turn) (cmds : List Nat),
    s.fg = .ready → s.streaming = false → index < s.count → Memory.wf s.buf = true →
    s.turns = .foreground :: .foreground :: .foreground :: turns → s.cmds = w :: cmds →
    decode s.idxw (.command w) = .ok (.setpixPacked index v) →
    ∃ t : State, steps 3 s = .next t ∧
      t = { s with
        buf := Memory.write s.buf index (v ||| 0x8000#16)
        turns := turns
        cmds := cmds
        resp := s.resp ++ [.done] } ∧
      memRead t index = some (v ||| 0x8000#16) ∧
      (∀ a, a ≠ index → memRead t a = memRead s a)

/-- R104: GATE, a foreground turn with `fg = WaitGate(i, w)` and `streaming = 0`, gives `fg = Granted(i, w)` and nothing
else. -/
def Obligations.GatePassesWhenIdle : Prop :=
  ∀ (s : State) (i : Nat) (w : Word) (turns : List Turn),
    s.turns = .foreground :: turns → s.fg = .waitGate i w → s.streaming = false →
    step s = .next { s with turns := turns, fg := .granted i w }

/-- R105: while `fg = WaitGate(i, w)` and `streaming = 1` no number of foreground turns does anything: the SETPIX stays
held, no command is issued. -/
def Obligations.HeldForegroundHasNoStep : Prop :=
  ∀ (n : Nat) (s : State) (i : Nat) (w : Word) (turns : List Turn),
    s.turns = List.replicate n .foreground ++ turns → s.fg = .waitGate i w → s.streaming = true →
    steps n s = .next { s with turns := turns }

/-- R106: WRITE, a foreground turn with `fg = Granted(i, w)`, stores the word and completes the command, whatever
`streaming` is; every other word reads as before. -/
def Obligations.WriteStoresTheGrantedWord : Prop :=
  ∀ (s : State) (i : Nat) (w : Word) (turns : List Turn),
    s.turns = .foreground :: turns → s.fg = .granted i w → i < s.count → Memory.wf s.buf = true →
    ∃ t : State, step s = .next t ∧
      t = { s with turns := turns, buf := Memory.write s.buf i w, fg := .ready, resp := s.resp ++ [.done] } ∧
      memRead t i = some w ∧ (∀ a, a ≠ i → memRead t a = memRead s a)

/-- The model's reading of "the next may be presented only after the previous one has completed" (R68, D26; log 9): a
command at a port in use waits, with nothing changed. -/
def Obligations.CommandWaitsWhilePortInUse : Prop :=
  ∀ (i : Instr) (s : State), isCommand i = true → s.fg ≠ .ready → exec i s = .next s

/-- R120, R35: CONSTRUCT with a legal count puts every field of the block at its reset value, whatever the state was, a
held SETPIX included; `position` is left unspecified. -/
def Obligations.ConstructResetsEverything : Prop :=
  ∀ (s : State) (c : Nat), 1 ≤ c → c ≤ 2 ^ s.idxw - 1 →
    ∃ t : State, exec (.construct c) s = .next t ∧
      t.count = c ∧ (∀ i, i < c → memRead t i = some 0x8000#16) ∧ t.streaming = false ∧
      t.refreshRequested = false ∧ t.rate = Config.rateReset ∧ t.started = false ∧
      t.fg = .ready ∧ t.bus = [] ∧ t.plat = []

/-- The model's choice (log 3, log 11, log 17): CONSTRUCT leaves in `position` some value of `IDXW` bits, empties the trace
of completions, and keeps what belongs to the outside: the width, the turns and the commands still to come. -/
def Obligations.ConstructKeepsTheOutside : Prop :=
  ∀ (s t : State) (c : Nat), exec (.construct c) s = .next t →
    t.position < 2 ^ s.idxw ∧ t.resp = [] ∧ t.idxw = s.idxw ∧ t.turns = s.turns ∧ t.cmds = s.cmds ∧
    t.freeCtr = s.freeCtr + 1

/-- R121: CONSTRUCT outside `1 <= count <= 2^IDXW - 1` is refused. -/
def Obligations.ConstructOutOfRangeIsRefused : Prop :=
  ∀ (s : State) (c : Nat), (c = 0 ∨ 2 ^ s.idxw - 1 < c) → exec (.construct c) s = .refused .countOutOfRange

/-- What a command of the port leaves unchanged when it gives a next state: every word of the store, COUNT, `streaming`,
`position`, `bus`; and `started` unless it is BEGIN, `rate` unless SETRATE, `plat` unless one of these two,
`refreshRequested` unless REFRESH, `fg` unless a SETPIX (R36, R107, R110, R122, R124, R126). -/
def Obligations.CommandFrame : Prop :=
  ∀ (i : Instr) (s t : State), isCommand i = true → exec i s = .next t →
    (∀ a, memRead t a = memRead s a) ∧ t.buf = s.buf ∧ t.count = s.count ∧ t.streaming = s.streaming ∧
    t.position = s.position ∧ t.bus = s.bus ∧ t.idxw = s.idxw ∧ t.turns = s.turns ∧ t.cmds = s.cmds ∧
    t.freeCtr = s.freeCtr ∧
    (i ≠ .begin → t.started = s.started) ∧
    ((∀ p, i ≠ .setrate p) → t.rate = s.rate) ∧
    ((i ≠ .begin ∧ ∀ p, i ≠ .setrate p) → t.plat = s.plat) ∧
    (i ≠ .refresh → t.refreshRequested = s.refreshRequested) ∧
    (((∀ n r g b, i ≠ .setpixRgb n r g b) ∧ ∀ n v, i ≠ .setpixPacked n v) → t.fg = s.fg)

/-! ## TICK -/

/-- R81: case IDLE sends one filler byte and changes nothing else. -/
def Obligations.TickIdleSendsOneFiller : Prop :=
  ∀ s : State, s.started = true → s.streaming = false → s.refreshRequested = false →
    exec .tick s = .next { s with bus := s.bus ++ [0x00#8] }

/-- R82: case START clears the request, sends the preamble, resets the cursor and enters Streaming. -/
def Obligations.TickStartBeginsAPass : Prop :=
  ∀ s : State, s.started = true → s.streaming = false → s.refreshRequested = true →
    exec .tick s = .next { s with
      refreshRequested := false, bus := s.bus ++ [0x00#8], position := 0, streaming := true }

/-- R83: case WORD sends the word at the cursor, high byte first, and advances the cursor; a pending request is untouched. -/
def Obligations.TickWordSendsAndAdvances : Prop :=
  ∀ s : State, s.started = true → s.streaming = true → s.position + 1 < s.count →
    ∃ w : Word, memRead s s.position = some w ∧
      exec .tick s = .next { s with
        bus := s.bus ++ [w.extractLsb' 8 8, w.extractLsb' 0 8], position := s.position + 1 }

/-- R84: case LAST sends the last word, high byte first, advances the cursor and returns to Idle in the same tick. -/
def Obligations.TickLastEndsThePass : Prop :=
  ∀ s : State, s.started = true → s.streaming = true → s.position + 1 = s.count →
    ∃ w : Word, memRead s s.position = some w ∧
      exec .tick s = .next { s with
        bus := s.bus ++ [w.extractLsb' 8 8, w.extractLsb' 0 8], position := s.position + 1, streaming := false }

/-- R85: a Streaming tick with no word remaining is refused (log 14), and no state that meets the invariant of R34 has one:
there TICK answers a next state. With `started = 1` that is R80; that it does so with `started = 0`, where R80 does not
enable TICK, is the model's reading of "no step" (log 8). -/
def Obligations.TickWithoutWordIsRefusedAndUnreachable : Prop :=
  (∀ s : State, s.started = true → s.streaming = true → s.count ≤ s.position →
    exec .tick s = .refused .noWordAtCursor) ∧
  (∀ s : State, Inv s → ∃ t : State, exec .tick s = .next t)

/-- The tick is delivered exactly when `started = 1` (R27, R80, R133): before BEGIN a strobe is no step and the state is
unchanged (V-TK10; log 8). -/
def Obligations.TickBeforeBeginIsNoStep : Prop :=
  ∀ s : State, s.started = false → exec .tick s = .next s

/-- R91: no case of TICK writes `buf`, COUNT, `rate`, `started`, `fg` or `plat` (nor a completion, nor the model's own
fields). -/
def Obligations.TickFrame : Prop :=
  ∀ s t : State, exec .tick s = .next t →
    (∀ a, memRead t a = memRead s a) ∧ t.buf = s.buf ∧ t.count = s.count ∧ t.rate = s.rate ∧
    t.started = s.started ∧ t.fg = s.fg ∧ t.plat = s.plat ∧ t.resp = s.resp ∧ t.idxw = s.idxw ∧
    t.turns = s.turns ∧ t.cmds = s.cmds ∧ t.freeCtr = s.freeCtr

/-- R91, R23: what a tick does depends on the shared state alone: two states that agree on `started`, the flags, the
cursor, COUNT and the store go to states that agree on them again and send the same bytes, however they differ in `fg`,
`rate`, the traces and the rest. -/
def Obligations.TickReadsOnlySharedState : Prop :=
  ∀ s s' t : State, s'.started = s.started → s'.streaming = s.streaming →
    s'.refreshRequested = s.refreshRequested → s'.position = s.position → s'.count = s.count → s'.buf = s.buf →
    exec .tick s = .next t →
    ∃ (t' : State) (bytes : List Byte), exec .tick s' = .next t' ∧ t.bus = s.bus ++ bytes ∧
      t'.bus = s'.bus ++ bytes ∧ t'.streaming = t.streaming ∧ t'.refreshRequested = t.refreshRequested ∧
      t'.position = t.position

/-- R90: a delivered tick sends one filler byte in Idle and two bytes of a word in Streaming, never none and never more. -/
def Obligations.TickSendsOneOrTwoBytes : Prop :=
  ∀ s t : State, s.started = true → exec .tick s = .next t →
    (s.streaming = false → t.bus = s.bus ++ [0x00#8]) ∧
    (s.streaming = true → ∃ w : Word, memRead s s.position = some w ∧
      t.bus = s.bus ++ [w.extractLsb' 8 8, w.extractLsb' 0 8])

/-- R87 and R58 (a): from Idle with a request pending, `1 + COUNT` ticks send the preamble and then the store as it stood,
each word once, in ascending index order, and return to Idle. The cursor is left at `COUNT`, the dead value that R84 names:
which value `position` holds in Idle is the model's reading (log 18), since R22 calls it unspecified there. Beside these
four fields nothing changes. -/
def Obligations.PassSendsTheWholeStore : Prop :=
  ∀ s : State, Inv s → s.started = true → s.streaming = false → s.refreshRequested = true →
    ticks (1 + s.count) s = .next { s with
      refreshRequested := false
      position := s.count
      bus := s.bus ++ 0x00#8 :: dataBytes (storeWords s.buf 0 s.count) }

/-- R87: a pass takes exactly `1 + COUNT` ticks and sends exactly `1 + 2 * COUNT` bytes: after each smaller positive number
of ticks it is still running, with one preamble and two bytes a word sent, and after `1 + COUNT` ticks it is over. -/
def Obligations.PassRunsUntilItsLastTick : Prop :=
  ∀ s : State, Inv s → s.started = true → s.streaming = false → s.refreshRequested = true →
    (∀ n : Nat, 1 ≤ n → n ≤ s.count →
      ∃ t : State, ticks n s = .next t ∧ t.streaming = true ∧ t.position = n - 1 ∧
        t.bus.length = s.bus.length + 1 + 2 * (n - 1)) ∧
    (∃ t : State, ticks (1 + s.count) s = .next t ∧ t.streaming = false ∧
      t.bus.length = s.bus.length + 1 + 2 * s.count)

/-- R88: a request pending when a pass ends makes the next tick a START tick: between the data of the two passes stands
one `0x00`. -/
def Obligations.PendingRequestStartsPassAtOnce : Prop :=
  ∀ s : State, Inv s → s.streaming = true → s.refreshRequested = true → s.position + 1 = s.count →
    ∃ w : Word, memRead s s.position = some w ∧
      ticks 2 s = .next { s with
        refreshRequested := false, position := 0
        bus := s.bus ++ [w.extractLsb' 8 8, w.extractLsb' 0 8, 0x00#8] }

/-- R108: from a running pass the gate opens after exactly `COUNT - position` ticks; with a request pending one more pass
of `1 + COUNT` ticks may follow, and after that, at the latest after `2 * COUNT + 1` ticks, the machine is Idle with no
request and stays so under any further ticks. -/
def Obligations.GateOpensForGoodWithinTwoPasses : Prop :=
  ∀ s : State, Inv s → s.streaming = true →
    (∃ t : State, ticks (s.count - s.position) s = .next t ∧ t.streaming = false ∧
      t.refreshRequested = s.refreshRequested) ∧
    (∀ m, m < s.count - s.position → ∃ t : State, ticks m s = .next t ∧ t.streaming = true) ∧
    (∃ n, n ≤ 2 * s.count + 1 ∧ ∀ k, ∃ t : State, ticks (n + k) s = .next t ∧ t.streaming = false ∧
      t.refreshRequested = false ∧ t.fg = s.fg)

/-- R154: a REFRESH before BEGIN is not lost: the first tick after BEGIN starts a pass. -/
def Obligations.EarlyRefreshStartsTheFirstPass : Prop :=
  ∀ s : State, Inv s → s.started = false → s.fg = .ready →
    ∃ s₁ s₂ s₃ : State, exec .refresh s = .next s₁ ∧ exec .begin s₁ = .next s₂ ∧ exec .tick s₂ = .next s₃ ∧
      s₃.streaming = true ∧ s₃.position = 0 ∧ s₃.refreshRequested = false ∧ s₃.bus = s.bus ++ [0x00#8]

/-! ## The step and the whole machine -/

/-- The step runs the instruction that is decoded: a foreground turn at a ready port runs the next command word, a strobe
runs TICK, a reset line runs CONSTRUCT, each on the state with the turn (and the word) taken (R9; the turns are the
model's, log 7). A low strobe and a low reset line, which decode to nothing, are no event: the turn is taken and nothing
else changes (R73; the model's reading, log 23). -/
def Obligations.StepRunsTheDecodedInstruction : Prop :=
  ∀ (s : State) (turns : List Turn),
    (∀ (w : Nat) (cmds : List Nat) (i : Instr), s.turns = .foreground :: turns → s.fg = .ready → s.cmds = w :: cmds →
      decode s.idxw (.command w) = .ok i → step s = exec i { s with turns := turns, cmds := cmds }) ∧
    (∀ (level : BitVec 1) (i : Instr), s.turns = .strobe level :: turns → decode s.idxw (.strobe level) = .ok i →
      step s = exec i { s with turns := turns }) ∧
    (∀ (level : BitVec 1) (c : Nat) (i : Instr), s.turns = .resetLine level c :: turns →
      decode s.idxw (.resetLine level c) = .ok i → step s = exec i { s with turns := turns }) ∧
    (s.turns = .strobe 0#1 :: turns → step s = .next { s with turns := turns }) ∧
    (∀ c : Nat, s.turns = .resetLine 0#1 c :: turns → step s = .next { s with turns := turns })

/-- The same of a word placed from outside (the model's loader, log 16): the very next step runs the instruction of the
table word, a command on the state with the port ready, the tick on the state with the tick source started. -/
def Obligations.PlacedWordRunsNext : Prop :=
  ∀ (s : State) (nbits w : Nat) (i : Instr), s.idxw = Config.referenceIdxw → decodeTableWord nbits w = some i →
    step (s.withFetchWord nbits w) =
      if nbits ≤ 8 then exec i { s with started := true } else exec i { s with fg := .ready }

/-- R33 and R34: every step keeps the invariant (marker bits, cursor, port, rate, COUNT), with the canonical form of the
store. -/
def Obligations.StepKeepsTheInvariant : Prop :=
  ∀ s t : State, Inv s → step s = .next t → Inv t

/-- The invariant holds right after reset (R35; with the model's count, position and width, log 1 to log 3). -/
def Obligations.ResetMeetsTheInvariant : Prop :=
  Inv State.reset ∧ BusFramed State.reset

/-- R33: every word of the Pixel Store reads with its marker bit set, in every state that meets the invariant. -/
def Obligations.EveryPixelWordIsMarked : Prop :=
  ∀ (s : State) (i : Nat), Inv s → i < s.count → ∃ w : Word, memRead s i = some w ∧ w.getLsbD 15 = true

/-- R130: no step of a good state faults. -/
def Obligations.StepNeverFaults : Prop :=
  ∀ s : State, Inv s → ∀ r : Fault, step s ≠ .fault r

/-- R67: every step keeps the framing of the bus trace: lone fillers and whole passes, then the running pass, if any, cut
after whole words. -/
def Obligations.StepKeepsTheBusFraming : Prop :=
  ∀ s t : State, Inv s → BusFramed s → step s = .next t → BusFramed t

/-- R86: the state machine moves only on a delivered tick (or by reset): Idle to Streaming with a request pending, the
cursor at the start; Streaming to Idle at the last word. -/
def Obligations.OnlyTicksMoveTheStateMachine : Prop :=
  ∀ s t : State, noReset s → step s = .next t →
    (t.streaming ≠ s.streaming →
      s.started = true ∧ (∃ turns, s.turns = .strobe 1#1 :: turns) ∧
      (s.streaming = false → s.refreshRequested = true ∧ t.position = 0) ∧
      (s.streaming = true → s.position + 1 = s.count)) ∧
    (t.position ≠ s.position → s.started = true ∧ (∃ turns, s.turns = .strobe 1#1 :: turns) ∧
      (s.streaming = true → t.position = s.position + 1))

/-- R21, R27, R133: without a reset COUNT never changes and `started` is never cleared. -/
def Obligations.CountIsFixedAndTicksNeverStop : Prop :=
  ∀ s t : State, noReset s → step s = .next t →
    t.count = s.count ∧ t.idxw = s.idxw ∧ (s.started = true → t.started = true)

/-- R25, R55: the request flag is a mailbox: without a reset it is set only by a foreground turn that issues REFRESH, and
cleared only by a delivered tick in Idle, which starts a pass. -/
def Obligations.RequestFlagIsAMailbox : Prop :=
  ∀ s t : State, noReset s → step s = .next t →
    (s.refreshRequested = false → t.refreshRequested = true →
      ∃ turns w cmds, s.turns = .foreground :: turns ∧ s.fg = .ready ∧ s.cmds = w :: cmds ∧
        decode s.idxw (.command w) = .ok .refresh) ∧
    (s.refreshRequested = true → t.refreshRequested = false →
      (∃ turns, s.turns = .strobe 1#1 :: turns) ∧ s.started = true ∧ s.streaming = false ∧ t.streaming = true)

/-- R36, R51: the store is written only by the WRITE step of the foreground, at the granted index and with the granted
word, and the bus is written only by ticks. -/
def Obligations.StoreAndBusHaveOneWriter : Prop :=
  ∀ s t : State, noReset s → step s = .next t →
    (t.buf ≠ s.buf → ∃ turns i w, s.turns = .foreground :: turns ∧ s.fg = .granted i w ∧
      t.buf = Memory.write s.buf i w) ∧
    (t.bus ≠ s.bus → s.started = true ∧ ∃ turns, s.turns = .strobe 1#1 :: turns)

/-- R58 (b): while a pass runs and no write was granted before it, no run of steps, however foreground turns and ticks
interleave, changes the store. -/
def Obligations.PassKeepsTheStore : Prop :=
  ∀ (n : Nat) (s t : State), noReset s → s.streaming = true → (∀ i w, s.fg ≠ .granted i w) →
    passRunsThrough n s → steps n s = .next t → t.buf = s.buf

/-- R58 (b), (c), (d): with a write granted before the pass, at most the one granted index changes while the pass runs,
and it holds the old word or the new one, never a mixture. -/
def Obligations.AtMostOneWordChangesInAPass : Prop :=
  ∀ (n : Nat) (s t : State) (i : Nat) (w : Word), Inv s → noReset s → s.streaming = true → s.fg = .granted i w →
    passRunsThrough n s → steps n s = .next t →
    (∀ a, a ≠ i → memRead t a = memRead s a) ∧ (memRead t i = memRead s i ∨ memRead t i = some w)

/-- R26: `rate` has no effect on any other state or on the bus: two runs from states that differ only in `rate` and in
the platform trace make the same steps and end in states that differ only in these. -/
def Obligations.RateHasNoFunctionalEffect : Prop :=
  ∀ (n : Nat) (s t : State) (rate : BitVec 7) (plat : List PlatEvent),
    steps n s = .next t →
    ∃ (rate' : BitVec 7) (plat' : List PlatEvent),
      steps n { s with rate := rate, plat := plat } =
        .next { t with rate := rate', plat := plat' }

/-- R129, R154: before BEGIN, in a good state, no pass runs, so a waiting SETPIX passes its gate at its next turn. -/
def Obligations.BeforeBeginSetpixNeverWaits : Prop :=
  ∀ s : State, Inv s → s.started = false →
    s.streaming = false ∧
    (∀ (i : Nat) (w : Word) (turns : List Turn), s.turns = .foreground :: turns → s.fg = .waitGate i w →
      step s = .next { s with turns := turns, fg := .granted i w })
end

