-- ==== Sys2Proof/Laws/Memory.lean ====
section
/-! SUPPORT. The laws of the Pixel Store as a list in canonical form: every operation keeps the form, and what a read
gives after a write. -/

namespace Sys2Proof.Machine

@[simp] theorem Memory.read_nil (i : Nat) : Memory.read [] i = black := rfl

theorem Memory.read_cons (a : Nat) (w : Word) (m : Memory) (i : Nat) :
    Memory.read ((a, w) :: m) i = if a = i then w else Memory.read m i := rfl

theorem Memory.wfFrom_cons {lo a : Nat} {w : Word} {m : Memory} :
    Memory.wfFrom lo ((a, w) :: m) = true ↔ lo ≤ a ∧ w ≠ black ∧ Memory.wfFrom (a + 1) m = true := by
  simp [Memory.wfFrom, and_assoc]

/-- The form from `lo` on is the form from any lower index on. -/
theorem Memory.wfFrom_mono {lo lo' : Nat} {m : Memory} (h : lo' ≤ lo) (hm : Memory.wfFrom lo m = true) :
    Memory.wfFrom lo' m = true := by
  cases m with
  | nil => rfl
  | cons c m =>
    obtain ⟨a, w⟩ := c
    rw [Memory.wfFrom_cons] at hm ⊢
    exact ⟨h.trans hm.1, hm.2⟩

/-- Below the first listed index every read is black. -/
theorem Memory.read_below {m : Memory} : ∀ {lo i : Nat}, Memory.wfFrom lo m = true → i < lo →
    Memory.read m i = black := by
  induction m with
  | nil => intros; rfl
  | cons c m ih =>
    obtain ⟨a, w⟩ := c
    intro lo i hm hi
    rw [Memory.wfFrom_cons] at hm
    rw [Memory.read_cons, if_neg (by omega)]
    exact ih hm.2.2 (by omega)

theorem Memory.cons_wfFrom {lo i : Nat} {v : Word} {m : Memory} (h : lo ≤ i)
    (hm : Memory.wfFrom (i + 1) m = true) : Memory.wfFrom lo (Memory.cons i v m) = true := by
  unfold Memory.cons
  split
  · exact Memory.wfFrom_mono (by omega) hm
  · exact Memory.wfFrom_cons.2 ⟨h, ‹_›, hm⟩

theorem Memory.read_cons_self {i : Nat} {v : Word} {m : Memory} (hm : Memory.wfFrom (i + 1) m = true) :
    Memory.read (Memory.cons i v m) i = v := by
  unfold Memory.cons
  split
  · rw [Memory.read_below hm (by omega)]; exact (by assumption : v = black).symm
  · simp [Memory.read_cons]

theorem Memory.read_cons_of_ne {i a : Nat} {v : Word} {m : Memory} (h : a ≠ i) :
    Memory.read (Memory.cons i v m) a = Memory.read m a := by
  unfold Memory.cons
  split
  · rfl
  · rw [Memory.read_cons, if_neg (Ne.symm h)]

/-- A write keeps the canonical form. -/
theorem Memory.write_wfFrom {m : Memory} {i : Nat} {v : Word} : ∀ {lo : Nat}, lo ≤ i →
    Memory.wfFrom lo m = true → Memory.wfFrom lo (Memory.write m i v) = true := by
  induction m with
  | nil => intro lo h _; exact Memory.cons_wfFrom h rfl
  | cons c m ih =>
    obtain ⟨a, w⟩ := c
    intro lo h hm
    have hc := Memory.wfFrom_cons.1 hm
    unfold Memory.write
    split
    · exact Memory.wfFrom_cons.2 ⟨hc.1, hc.2.1, ih (by omega) hc.2.2⟩
    · split
      · subst a; exact Memory.cons_wfFrom h hc.2.2
      · exact Memory.cons_wfFrom h (Memory.wfFrom_cons.2 ⟨by omega, hc.2⟩)

/-- A write keeps the canonical form of the whole store. -/
theorem Memory.write_wf {m : Memory} {i : Nat} {v : Word} (hm : Memory.wf m = true) :
    Memory.wf (Memory.write m i v) = true :=
  Memory.write_wfFrom (Nat.zero_le i) hm

theorem Memory.reset_wf : Memory.wf State.reset.buf = true := rfl

theorem Memory.read_write_self {m : Memory} {i : Nat} {v : Word} : ∀ {lo : Nat},
    Memory.wfFrom lo m = true → Memory.read (Memory.write m i v) i = v := by
  induction m with
  | nil => intros; exact Memory.read_cons_self rfl
  | cons c m ih =>
    obtain ⟨a, w⟩ := c
    intro lo hm
    have hc := Memory.wfFrom_cons.1 hm
    unfold Memory.write
    split
    · rw [Memory.read_cons, if_neg (by omega)]; exact ih hc.2.2
    · split
      · subst a; exact Memory.read_cons_self hc.2.2
      · exact Memory.read_cons_self (Memory.wfFrom_cons.2 ⟨by omega, hc.2⟩)

theorem Memory.read_write_of_ne {m : Memory} {i a : Nat} {v : Word} (h : a ≠ i) :
    Memory.read (Memory.write m i v) a = Memory.read m a := by
  induction m with
  | nil => exact Memory.read_cons_of_ne h
  | cons c m ih =>
    obtain ⟨b, w⟩ := c
    unfold Memory.write
    split
    · simp only [Memory.read_cons, ih]
    · split
      · subst b; rw [Memory.read_cons_of_ne h, Memory.read_cons, if_neg (Ne.symm h)]
      · exact Memory.read_cons_of_ne h

/-- A written store lists nothing that was not listed before or just written. -/
theorem Memory.mem_write {m : Memory} {i : Nat} {v : Word} {c : Nat × Word} (h : c ∈ Memory.write m i v) :
    c ∈ m ∨ c = (i, v) := by
  induction m with
  | nil =>
    simp only [Memory.write, Memory.cons] at h
    split at h
    · exact .inl h
    · exact .inr (List.mem_singleton.1 h)
  | cons d m ih =>
    obtain ⟨a, w⟩ := d
    unfold Memory.write at h
    split at h
    · rcases List.mem_cons.1 h with rfl | h
      · exact .inl List.mem_cons_self
      · exact (ih h).imp_left (List.mem_cons_of_mem _)
    · split at h <;> unfold Memory.cons at h <;> split at h
      · exact .inl (List.mem_cons_of_mem _ h)
      · exact (List.mem_cons.1 h).elim .inr (fun h => .inl (List.mem_cons_of_mem _ h))
      · exact .inl h
      · exact (List.mem_cons.1 h).elim .inr .inl

/-- A read gives a listed word or black. -/
theorem Memory.read_mem_or_black (m : Memory) (i : Nat) : (i, Memory.read m i) ∈ m ∨ Memory.read m i = black := by
  induction m with
  | nil => exact .inr rfl
  | cons c m ih =>
    obtain ⟨a, w⟩ := c
    rw [Memory.read_cons]
    split
    · subst a; exact .inl List.mem_cons_self
    · exact ih.imp_left (List.mem_cons_of_mem _)

end Sys2Proof.Machine
end

