-- ==== Sys2Proof/Laws/Ops.lean ====
section
/-! SUPPORT. Everything the shared operations can do: MemRead, MemWrite, the waiting at a port in use, the taking of the
tick. -/

namespace Sys2Proof.Machine

theorem memRead_of_lt {s : State} {i : Nat} (h : i < s.count) : memRead s i = some (Memory.read s.buf i) := if_pos h

theorem memRead_of_le {s : State} {i : Nat} (h : s.count ≤ i) : memRead s i = none := if_neg (by omega)

/-- A read of the Pixel Store depends on `buf` and COUNT alone. -/
theorem memRead_congr {s t : State} (hb : t.buf = s.buf) (hc : t.count = s.count) (i : Nat) :
    memRead t i = memRead s i := by
  simp only [memRead, hb, hc]

theorem memWrite_of_lt {s : State} {i : Nat} (v : Word) (h : i < s.count) :
    memWrite s i v = .next { s with buf := Memory.write s.buf i v } := if_pos h

theorem memWrite_of_le {s : State} {i : Nat} (v : Word) (h : s.count ≤ i) :
    memWrite s i v = .fault .noSuchPixel := if_neg (by omega)

theorem whenReady_ready {s : State} {k : Host.Outcome State Fault Refusal} (h : s.fg = .ready) :
    whenReady s k = k := by
  simp only [whenReady, h]

theorem whenReady_waits {s : State} {k : Host.Outcome State Fault Refusal} (h : s.fg ≠ .ready) :
    whenReady s k = .next s := by
  unfold whenReady
  split
  · exact absurd ‹_› h
  · rfl
  · rfl

/-- A command either is issued at a ready port, or waits with nothing changed. -/
theorem whenReady_next {s t : State} {k : Host.Outcome State Fault Refusal} (h : whenReady s k = .next t) :
    (s.fg = .ready ∧ k = .next t) ∨ (s.fg ≠ .ready ∧ t = s) := by
  by_cases hr : s.fg = .ready
  · rw [whenReady_ready hr] at h; exact .inl ⟨hr, h⟩
  · rw [whenReady_waits hr] at h; cases h; exact .inr ⟨hr, rfl⟩

/-- A command waiting at a port does not fault. -/
theorem whenReady_fault {s : State} {k : Host.Outcome State Fault Refusal} {r : Fault}
    (h : whenReady s k = .fault r) : s.fg = .ready ∧ k = .fault r := by
  by_cases hr : s.fg = .ready
  · rw [whenReady_ready hr] at h; exact ⟨hr, h⟩
  · rw [whenReady_waits hr] at h; cases h

theorem takeTick_started {s : State} {f : State → Host.Outcome State Fault Refusal} (h : s.started = true) :
    takeTick s f = f s := by
  simp only [takeTick, h]

theorem takeTick_stopped {s : State} {f : State → Host.Outcome State Fault Refusal} (h : s.started = false) :
    takeTick s f = .next s := by
  simp only [takeTick, h]

end Sys2Proof.Machine
end

