-- ==== Sys2Proof/Laws/Packing.lean ====
section
/-! SUPPORT. The bits of a packed word, one by one (R60 to R62). -/

namespace Sys2Proof.Machine

theorem channel_getLsbD (c : BitVec 8) (k : Nat) : (channel c).getLsbD k = (decide (k < 5) && c.getLsbD k) := by
  by_cases h : k < 8
  · interval_cases k <;> simp [channel]
  · simp [channel, show ¬ k < 5 by omega, BitVec.getLsbD_of_ge c k (by omega)]

theorem channel_getElem (c : BitVec 8) (k : Nat) (hk : k < 16) :
    (channel c)[k] = (decide (k < 5) && c.getLsbD k) := by
  rw [← channel_getLsbD, BitVec.getLsbD_eq_getElem]

/-- Every bit of `PackRGB(r, g, b)`. -/
theorem packRgb_getLsbD (r g b : BitVec 8) (k : Nat) (hk : k < 16) :
    (packRgb r g b).getLsbD k =
      if k = 15 then true else if 10 ≤ k then g.getLsbD (k - 10) else if 5 ≤ k then b.getLsbD (k - 5) else r.getLsbD k := by
  interval_cases k <;> simp [packRgb, channel_getElem]

theorem packRgb_marked (r g b : BitVec 8) : marked (packRgb r g b) = true :=
  packRgb_getLsbD r g b 15 (by decide)

theorem packRaw_marked (v : BitVec 16) : marked (packRaw v) = true := by
  simp [marked, packRaw]

theorem black_marked : marked black = true := by decide

theorem busBytes_length (w : Word) : (busBytes w).length = 2 := rfl

end Sys2Proof.Machine
end

