-- ==== Sys2Proof/Laws/Exec.lean ====
section
/-! SUPPORT. What each meaning can answer: the four cases of TICK, the issue of each command, CONSTRUCT, and the steps of
a SETPIX in progress. -/

namespace Sys2Proof.Machine

/-! ## TICK -/

theorem execTick_stopped {s : State} (h : s.started = false) : execTick s = .next s := takeTick_stopped h

theorem execTick_idle {s : State} (h : s.started = true) (hs : s.streaming = false)
    (hr : s.refreshRequested = false) : execTick s = .next { s with bus := s.bus ++ [filler] } := by
  rw [execTick, takeTick_started h]
  simp only [tickCallback, hs, tickInIdle, hr, returnFromTick, tickIdle, busXfer]

theorem execTick_start {s : State} (h : s.started = true) (hs : s.streaming = false)
    (hr : s.refreshRequested = true) : execTick s = .next { s with
      refreshRequested := false, bus := s.bus ++ [filler], position := 0, streaming := true } := by
  rw [execTick, takeTick_started h]
  simp only [tickCallback, hs, tickInIdle, hr, returnFromTick, tickStartPass, setStreaming, setPosition, busXfer,
    clearRefresh]

/-- WORD and LAST in one equation. -/
theorem execTick_pass {s : State} (h : s.started = true) (hs : s.streaming = true) (hp : s.position < s.count) :
    execTick s = .next { s with
      bus := s.bus ++ busBytes (Memory.read s.buf s.position)
      position := s.position + 1
      streaming := !decide (s.position + 1 = s.count) } := by
  rw [execTick, takeTick_started h]
  simp only [tickCallback, hs, memRead_of_lt hp, tickInPass]
  split <;>
    simp_all [returnFromTick, clearStreaming, tickSendWord, setPosition, busXferWord, busXfer, busBytes]

theorem execTick_noWord {s : State} (h : s.started = true) (hs : s.streaming = true) (hp : s.count ≤ s.position) :
    execTick s = .refused .noWordAtCursor := by
  rw [execTick, takeTick_started h]
  simp only [tickCallback, hs, memRead_of_le hp]

/-- The four cases of a delivered tick, and the two states in which there is none. -/
theorem execTick_cases (s : State) :
    (s.started = false ∧ execTick s = .next s) ∨
    (s.started = true ∧ s.streaming = false ∧ s.refreshRequested = false ∧
      execTick s = .next { s with bus := s.bus ++ [filler] }) ∨
    (s.started = true ∧ s.streaming = false ∧ s.refreshRequested = true ∧
      execTick s = .next { s with
        refreshRequested := false, bus := s.bus ++ [filler], position := 0, streaming := true }) ∨
    (s.started = true ∧ s.streaming = true ∧ s.position < s.count ∧
      execTick s = .next { s with
        bus := s.bus ++ busBytes (Memory.read s.buf s.position)
        position := s.position + 1
        streaming := !decide (s.position + 1 = s.count) }) ∨
    (s.started = true ∧ s.streaming = true ∧ s.count ≤ s.position ∧ execTick s = .refused .noWordAtCursor) := by
  by_cases hst : s.started = true
  · by_cases hs : s.streaming = true
    · rcases Nat.lt_or_ge s.position s.count with hp | hp
      · exact .inr (.inr (.inr (.inl ⟨hst, hs, hp, execTick_pass hst hs hp⟩)))
      · exact .inr (.inr (.inr (.inr ⟨hst, hs, hp, execTick_noWord hst hs hp⟩)))
    · have hs' := Bool.eq_false_of_not_eq_true hs
      by_cases hr : s.refreshRequested = true
      · exact .inr (.inr (.inl ⟨hst, hs', hr, execTick_start hst hs' hr⟩))
      · have hr' := Bool.eq_false_of_not_eq_true hr
        exact .inr (.inl ⟨hst, hs', hr', execTick_idle hst hs' hr'⟩)
  · have hst' := Bool.eq_false_of_not_eq_true hst
    exact .inl ⟨hst', execTick_stopped hst'⟩

/-- Everything TICK can do when it answers a next state. -/
theorem execTick_next {s t : State} (h : execTick s = .next t) :
    (s.started = false ∧ t = s) ∨
    (s.started = true ∧ s.streaming = false ∧ s.refreshRequested = false ∧
      t = { s with bus := s.bus ++ [filler] }) ∨
    (s.started = true ∧ s.streaming = false ∧ s.refreshRequested = true ∧
      t = { s with refreshRequested := false, bus := s.bus ++ [filler], position := 0, streaming := true }) ∨
    (s.started = true ∧ s.streaming = true ∧ s.position < s.count ∧
      t = { s with
        bus := s.bus ++ busBytes (Memory.read s.buf s.position)
        position := s.position + 1
        streaming := !decide (s.position + 1 = s.count) }) := by
  rcases execTick_cases s with ⟨h1, e⟩ | ⟨h1, h2, h3, e⟩ | ⟨h1, h2, h3, e⟩ | ⟨h1, h2, h3, e⟩ | ⟨_, _, _, e⟩ <;>
    rw [e] at h <;> cases h
  · exact .inl ⟨h1, rfl⟩
  · exact .inr (.inl ⟨h1, h2, h3, rfl⟩)
  · exact .inr (.inr (.inl ⟨h1, h2, h3, rfl⟩))
  · exact .inr (.inr (.inr ⟨h1, h2, h3, rfl⟩))

/-- TICK never faults. -/
theorem execTick_ne_fault (s : State) (r : Fault) : execTick s ≠ .fault r := by
  rcases execTick_cases s with ⟨_, e⟩ | ⟨_, _, _, e⟩ | ⟨_, _, _, e⟩ | ⟨_, _, _, e⟩ | ⟨_, _, _, e⟩ <;> simp [e]

/-! ## Commands -/

theorem setPixCommon_out {s : State} {index : Nat} (w : Word) (h : s.count ≤ index) :
    setPixCommon index w s = .next (complete s .done) := if_pos h

theorem setPixCommon_in {s : State} {index : Nat} (w : Word) (h : index < s.count) :
    setPixCommon index w s = .next (setFg s (.waitGate index w)) := if_neg (by omega)

/-- `Issued s i t`: the command `i`, issued in `s` at a ready port, gives `t`. -/
inductive Issued (s : State) : Instr → State → Prop where
  | begin (h : s.started = false) : Issued s .begin { s with
      started := true
      plat := s.plat ++ [.cfg Config.busBitOrder Config.busCpol Config.busClkDiv] ++ [.period (periodOf s.rate)] ++
        [.start]
      resp := s.resp ++ [.done] }
  | setrate (p : BitVec 7) (h : percentLegal p = true) : Issued s (.setrate p) { s with
      rate := p, plat := s.plat ++ [.period (periodOf p)], resp := s.resp ++ [.done] }
  | pixcount : Issued s .pixcount { s with resp := s.resp ++ [.doneValue s.count] }
  | refresh : Issued s .refresh { s with refreshRequested := true, resp := s.resp ++ [.done] }
  | rgbOut (index : Nat) (r g b : BitVec 8) (h : s.count ≤ index) :
      Issued s (.setpixRgb index r g b) { s with resp := s.resp ++ [.done] }
  | rgbIn (index : Nat) (r g b : BitVec 8) (h : index < s.count) :
      Issued s (.setpixRgb index r g b) { s with fg := .waitGate index (packRgb r g b) }
  | packedOut (index : Nat) (v : BitVec 16) (h : s.count ≤ index) :
      Issued s (.setpixPacked index v) { s with resp := s.resp ++ [.done] }
  | packedIn (index : Nat) (v : BitVec 16) (h : index < s.count) :
      Issued s (.setpixPacked index v) { s with fg := .waitGate index (packRaw v) }

/-- Everything a command can do when it answers a next state: it waits at a port in use, or it is issued. -/
theorem exec_command_next {i : Instr} {s t : State} (hi : isCommand i = true) (h : exec i s = .next t) :
    (s.fg ≠ .ready ∧ t = s) ∨ (s.fg = .ready ∧ Issued s i t) := by
  cases i with
  | begin =>
    rcases whenReady_next h with ⟨hr, h⟩ | h
    · split at h
      · cases h
      · cases h; exact .inr ⟨hr, .begin ‹_›⟩
    · exact .inl h
  | setrate p =>
    rcases whenReady_next h with ⟨hr, h⟩ | h
    · split at h
      · cases h; exact .inr ⟨hr, .setrate p ‹_›⟩
      · cases h
    · exact .inl h
  | pixcount =>
    rcases whenReady_next h with ⟨hr, h⟩ | h
    · cases h; exact .inr ⟨hr, .pixcount⟩
    · exact .inl h
  | refresh =>
    rcases whenReady_next h with ⟨hr, h⟩ | h
    · cases h; exact .inr ⟨hr, .refresh⟩
    · exact .inl h
  | setpixRgb index r g b =>
    rcases whenReady_next h with ⟨hr, h⟩ | h
    · rcases Nat.lt_or_ge index s.count with hc | hc
      · rw [setPixCommon_in _ hc] at h; cases h; exact .inr ⟨hr, .rgbIn index r g b hc⟩
      · rw [setPixCommon_out _ hc] at h; cases h; exact .inr ⟨hr, .rgbOut index r g b hc⟩
    · exact .inl h
  | setpixPacked index v =>
    rcases whenReady_next h with ⟨hr, h⟩ | h
    · rcases Nat.lt_or_ge index s.count with hc | hc
      · rw [setPixCommon_in _ hc] at h; cases h; exact .inr ⟨hr, .packedIn index v hc⟩
      · rw [setPixCommon_out _ hc] at h; cases h; exact .inr ⟨hr, .packedOut index v hc⟩
    · exact .inl h
  | tick => cases hi
  | construct c => cases hi

/-- No command faults. -/
theorem exec_command_ne_fault {i : Instr} {s : State} (hi : isCommand i = true) (r : Fault) :
    exec i s ≠ .fault r := by
  intro h
  cases i with
  | begin => have h := (whenReady_fault h).2; split at h <;> cases h
  | setrate p => have h := (whenReady_fault h).2; split at h <;> cases h
  | pixcount => cases (whenReady_fault h).2
  | refresh => cases (whenReady_fault h).2
  | setpixRgb index r g b => have h := (whenReady_fault h).2; unfold setPixCommon at h; split at h <;> cases h
  | setpixPacked index v => have h := (whenReady_fault h).2; unfold setPixCommon at h; split at h <;> cases h
  | tick => cases hi
  | construct c => cases hi

/-! ## CONSTRUCT -/

/-- What CONSTRUCT leaves. -/
def constructed (s : State) (count : Nat) : State :=
  { s with
    count := count
    buf := []
    streaming := false
    refreshRequested := false
    position := Config.freePosition s.freeCtr % 2 ^ s.idxw
    rate := Config.rateReset
    started := false
    fg := .ready
    bus := []
    plat := []
    resp := []
    freeCtr := s.freeCtr + 1 }

theorem execConstruct_legal {s : State} {c : Nat} (h : countLegal s.idxw c = true) :
    execConstruct c s = .next (constructed s c) := by
  simp only [execConstruct, h]; rfl

theorem execConstruct_illegal {s : State} {c : Nat} (h : countLegal s.idxw c = false) :
    execConstruct c s = .refused .countOutOfRange := by
  simp only [execConstruct, h]

theorem execConstruct_next {s t : State} {c : Nat} (h : execConstruct c s = .next t) :
    countLegal s.idxw c = true ∧ t = constructed s c := by
  by_cases hc : countLegal s.idxw c = true
  · rw [execConstruct_legal hc] at h; cases h; exact ⟨hc, rfl⟩
  · rw [execConstruct_illegal (Bool.eq_false_of_not_eq_true hc)] at h; cases h

/-! ## A SETPIX in progress -/

/-- Everything the foreground's internal step can do when it answers a next state: nothing, GATE or WRITE. -/
theorem resumeForeground_next {s t : State} (h : resumeForeground s = .next t) :
    (s.fg = .ready ∧ t = s) ∨
    (∃ i w, s.fg = .waitGate i w ∧ s.streaming = true ∧ t = s) ∨
    (∃ i w, s.fg = .waitGate i w ∧ s.streaming = false ∧ t = { s with fg := .granted i w }) ∨
    (∃ i w, s.fg = .granted i w ∧ i < s.count ∧
      t = { s with buf := Memory.write s.buf i w, fg := .ready, resp := s.resp ++ [.done] }) := by
  unfold resumeForeground at h
  split at h
  · cases h; exact .inl ⟨‹_›, rfl⟩
  · rename_i i w hf
    unfold gateStep at h
    split at h <;> rename_i hg <;> cases h
    · exact .inr (.inr (.inl ⟨i, w, hf, by simpa [gateOpen] using hg, rfl⟩))
    · exact .inr (.inl ⟨i, w, hf, by simpa [gateOpen] using hg, rfl⟩)
  · rename_i i w hf
    rcases Nat.lt_or_ge i s.count with hc | hc
    · rw [writeStep, memWrite_of_lt w hc] at h; cases h
      exact .inr (.inr (.inr ⟨i, w, hf, hc, rfl⟩))
    · rw [writeStep, memWrite_of_le w hc] at h; cases h

/-- GATE, at an open gate. -/
theorem resumeForeground_gate {s : State} {i : Nat} {w : Word} (hf : s.fg = .waitGate i w)
    (hs : s.streaming = false) : resumeForeground s = .next { s with fg := .granted i w } := by
  simp only [resumeForeground, hf, gateStep, gateOpen, hs, Bool.not_false, setFg]

/-- The hold, at a closed gate. -/
theorem resumeForeground_held {s : State} {i : Nat} {w : Word} (hf : s.fg = .waitGate i w)
    (hs : s.streaming = true) : resumeForeground s = .next s := by
  simp only [resumeForeground, hf, gateStep, gateOpen, hs, Bool.not_true]

/-- WRITE. -/
theorem resumeForeground_write {s : State} {i : Nat} {w : Word} (hf : s.fg = .granted i w) (hi : i < s.count) :
    resumeForeground s =
      .next { s with buf := Memory.write s.buf i w, fg := .ready, resp := s.resp ++ [.done] } := by
  simp only [resumeForeground, hf, writeStep, memWrite_of_lt w hi]; rfl

/-- Only WRITE can fault, at an index out of range. -/
theorem resumeForeground_fault {s : State} {r : Fault} (h : resumeForeground s = .fault r) :
    ∃ i w, s.fg = .granted i w ∧ s.count ≤ i := by
  unfold resumeForeground at h
  split at h
  · cases h
  · unfold gateStep at h; split at h <;> cases h
  · rename_i i w hf
    rcases Nat.lt_or_ge i s.count with hc | hc
    · rw [writeStep, memWrite_of_lt w hc] at h; cases h
    · exact ⟨i, w, hf, hc⟩

end Sys2Proof.Machine
end

