-- ==== Sys2Proof/Laws/State.lean ====
section
/-! SUPPORT. One lemma per field per update of State: what each named update leaves in each field. -/

namespace Sys2Proof.Machine

section
variable (s : State)
@[simp] theorem setRefresh_count : (setRefresh s).count = s.count := rfl
@[simp] theorem setRefresh_buf : (setRefresh s).buf = s.buf := rfl
@[simp] theorem setRefresh_streaming : (setRefresh s).streaming = s.streaming := rfl
@[simp] theorem setRefresh_refreshRequested : (setRefresh s).refreshRequested = true := rfl
@[simp] theorem setRefresh_position : (setRefresh s).position = s.position := rfl
@[simp] theorem setRefresh_rate : (setRefresh s).rate = s.rate := rfl
@[simp] theorem setRefresh_started : (setRefresh s).started = s.started := rfl
@[simp] theorem setRefresh_fg : (setRefresh s).fg = s.fg := rfl
@[simp] theorem setRefresh_bus : (setRefresh s).bus = s.bus := rfl
@[simp] theorem setRefresh_plat : (setRefresh s).plat = s.plat := rfl
@[simp] theorem setRefresh_resp : (setRefresh s).resp = s.resp := rfl
@[simp] theorem setRefresh_idxw : (setRefresh s).idxw = s.idxw := rfl
@[simp] theorem setRefresh_turns : (setRefresh s).turns = s.turns := rfl
@[simp] theorem setRefresh_cmds : (setRefresh s).cmds = s.cmds := rfl
@[simp] theorem setRefresh_freeCtr : (setRefresh s).freeCtr = s.freeCtr := rfl
end

section
variable (s : State)
@[simp] theorem clearRefresh_count : (clearRefresh s).count = s.count := rfl
@[simp] theorem clearRefresh_buf : (clearRefresh s).buf = s.buf := rfl
@[simp] theorem clearRefresh_streaming : (clearRefresh s).streaming = s.streaming := rfl
@[simp] theorem clearRefresh_refreshRequested : (clearRefresh s).refreshRequested = false := rfl
@[simp] theorem clearRefresh_position : (clearRefresh s).position = s.position := rfl
@[simp] theorem clearRefresh_rate : (clearRefresh s).rate = s.rate := rfl
@[simp] theorem clearRefresh_started : (clearRefresh s).started = s.started := rfl
@[simp] theorem clearRefresh_fg : (clearRefresh s).fg = s.fg := rfl
@[simp] theorem clearRefresh_bus : (clearRefresh s).bus = s.bus := rfl
@[simp] theorem clearRefresh_plat : (clearRefresh s).plat = s.plat := rfl
@[simp] theorem clearRefresh_resp : (clearRefresh s).resp = s.resp := rfl
@[simp] theorem clearRefresh_idxw : (clearRefresh s).idxw = s.idxw := rfl
@[simp] theorem clearRefresh_turns : (clearRefresh s).turns = s.turns := rfl
@[simp] theorem clearRefresh_cmds : (clearRefresh s).cmds = s.cmds := rfl
@[simp] theorem clearRefresh_freeCtr : (clearRefresh s).freeCtr = s.freeCtr := rfl
end

section
variable (s : State)
@[simp] theorem setStreaming_count : (setStreaming s).count = s.count := rfl
@[simp] theorem setStreaming_buf : (setStreaming s).buf = s.buf := rfl
@[simp] theorem setStreaming_streaming : (setStreaming s).streaming = true := rfl
@[simp] theorem setStreaming_refreshRequested : (setStreaming s).refreshRequested = s.refreshRequested := rfl
@[simp] theorem setStreaming_position : (setStreaming s).position = s.position := rfl
@[simp] theorem setStreaming_rate : (setStreaming s).rate = s.rate := rfl
@[simp] theorem setStreaming_started : (setStreaming s).started = s.started := rfl
@[simp] theorem setStreaming_fg : (setStreaming s).fg = s.fg := rfl
@[simp] theorem setStreaming_bus : (setStreaming s).bus = s.bus := rfl
@[simp] theorem setStreaming_plat : (setStreaming s).plat = s.plat := rfl
@[simp] theorem setStreaming_resp : (setStreaming s).resp = s.resp := rfl
@[simp] theorem setStreaming_idxw : (setStreaming s).idxw = s.idxw := rfl
@[simp] theorem setStreaming_turns : (setStreaming s).turns = s.turns := rfl
@[simp] theorem setStreaming_cmds : (setStreaming s).cmds = s.cmds := rfl
@[simp] theorem setStreaming_freeCtr : (setStreaming s).freeCtr = s.freeCtr := rfl
end

section
variable (s : State)
@[simp] theorem clearStreaming_count : (clearStreaming s).count = s.count := rfl
@[simp] theorem clearStreaming_buf : (clearStreaming s).buf = s.buf := rfl
@[simp] theorem clearStreaming_streaming : (clearStreaming s).streaming = false := rfl
@[simp] theorem clearStreaming_refreshRequested : (clearStreaming s).refreshRequested = s.refreshRequested := rfl
@[simp] theorem clearStreaming_position : (clearStreaming s).position = s.position := rfl
@[simp] theorem clearStreaming_rate : (clearStreaming s).rate = s.rate := rfl
@[simp] theorem clearStreaming_started : (clearStreaming s).started = s.started := rfl
@[simp] theorem clearStreaming_fg : (clearStreaming s).fg = s.fg := rfl
@[simp] theorem clearStreaming_bus : (clearStreaming s).bus = s.bus := rfl
@[simp] theorem clearStreaming_plat : (clearStreaming s).plat = s.plat := rfl
@[simp] theorem clearStreaming_resp : (clearStreaming s).resp = s.resp := rfl
@[simp] theorem clearStreaming_idxw : (clearStreaming s).idxw = s.idxw := rfl
@[simp] theorem clearStreaming_turns : (clearStreaming s).turns = s.turns := rfl
@[simp] theorem clearStreaming_cmds : (clearStreaming s).cmds = s.cmds := rfl
@[simp] theorem clearStreaming_freeCtr : (clearStreaming s).freeCtr = s.freeCtr := rfl
end

section
variable (s : State)
@[simp] theorem setStarted_count : (setStarted s).count = s.count := rfl
@[simp] theorem setStarted_buf : (setStarted s).buf = s.buf := rfl
@[simp] theorem setStarted_streaming : (setStarted s).streaming = s.streaming := rfl
@[simp] theorem setStarted_refreshRequested : (setStarted s).refreshRequested = s.refreshRequested := rfl
@[simp] theorem setStarted_position : (setStarted s).position = s.position := rfl
@[simp] theorem setStarted_rate : (setStarted s).rate = s.rate := rfl
@[simp] theorem setStarted_started : (setStarted s).started = true := rfl
@[simp] theorem setStarted_fg : (setStarted s).fg = s.fg := rfl
@[simp] theorem setStarted_bus : (setStarted s).bus = s.bus := rfl
@[simp] theorem setStarted_plat : (setStarted s).plat = s.plat := rfl
@[simp] theorem setStarted_resp : (setStarted s).resp = s.resp := rfl
@[simp] theorem setStarted_idxw : (setStarted s).idxw = s.idxw := rfl
@[simp] theorem setStarted_turns : (setStarted s).turns = s.turns := rfl
@[simp] theorem setStarted_cmds : (setStarted s).cmds = s.cmds := rfl
@[simp] theorem setStarted_freeCtr : (setStarted s).freeCtr = s.freeCtr := rfl
end

section
variable (s : State)
@[simp] theorem tickStart_count : (tickStart s).count = s.count := rfl
@[simp] theorem tickStart_buf : (tickStart s).buf = s.buf := rfl
@[simp] theorem tickStart_streaming : (tickStart s).streaming = s.streaming := rfl
@[simp] theorem tickStart_refreshRequested : (tickStart s).refreshRequested = s.refreshRequested := rfl
@[simp] theorem tickStart_position : (tickStart s).position = s.position := rfl
@[simp] theorem tickStart_rate : (tickStart s).rate = s.rate := rfl
@[simp] theorem tickStart_started : (tickStart s).started = s.started := rfl
@[simp] theorem tickStart_fg : (tickStart s).fg = s.fg := rfl
@[simp] theorem tickStart_bus : (tickStart s).bus = s.bus := rfl
@[simp] theorem tickStart_plat : (tickStart s).plat = s.plat ++ [.start] := rfl
@[simp] theorem tickStart_resp : (tickStart s).resp = s.resp := rfl
@[simp] theorem tickStart_idxw : (tickStart s).idxw = s.idxw := rfl
@[simp] theorem tickStart_turns : (tickStart s).turns = s.turns := rfl
@[simp] theorem tickStart_cmds : (tickStart s).cmds = s.cmds := rfl
@[simp] theorem tickStart_freeCtr : (tickStart s).freeCtr = s.freeCtr := rfl
end

section
variable (s : State) (p : BitVec 7)
@[simp] theorem setRate_count : (setRate s p).count = s.count := rfl
@[simp] theorem setRate_buf : (setRate s p).buf = s.buf := rfl
@[simp] theorem setRate_streaming : (setRate s p).streaming = s.streaming := rfl
@[simp] theorem setRate_refreshRequested : (setRate s p).refreshRequested = s.refreshRequested := rfl
@[simp] theorem setRate_position : (setRate s p).position = s.position := rfl
@[simp] theorem setRate_rate : (setRate s p).rate = p := rfl
@[simp] theorem setRate_started : (setRate s p).started = s.started := rfl
@[simp] theorem setRate_fg : (setRate s p).fg = s.fg := rfl
@[simp] theorem setRate_bus : (setRate s p).bus = s.bus := rfl
@[simp] theorem setRate_plat : (setRate s p).plat = s.plat := rfl
@[simp] theorem setRate_resp : (setRate s p).resp = s.resp := rfl
@[simp] theorem setRate_idxw : (setRate s p).idxw = s.idxw := rfl
@[simp] theorem setRate_turns : (setRate s p).turns = s.turns := rfl
@[simp] theorem setRate_cmds : (setRate s p).cmds = s.cmds := rfl
@[simp] theorem setRate_freeCtr : (setRate s p).freeCtr = s.freeCtr := rfl
end

section
variable (s : State) (v : Nat)
@[simp] theorem setPosition_count : (setPosition s v).count = s.count := rfl
@[simp] theorem setPosition_buf : (setPosition s v).buf = s.buf := rfl
@[simp] theorem setPosition_streaming : (setPosition s v).streaming = s.streaming := rfl
@[simp] theorem setPosition_refreshRequested : (setPosition s v).refreshRequested = s.refreshRequested := rfl
@[simp] theorem setPosition_position : (setPosition s v).position = v := rfl
@[simp] theorem setPosition_rate : (setPosition s v).rate = s.rate := rfl
@[simp] theorem setPosition_started : (setPosition s v).started = s.started := rfl
@[simp] theorem setPosition_fg : (setPosition s v).fg = s.fg := rfl
@[simp] theorem setPosition_bus : (setPosition s v).bus = s.bus := rfl
@[simp] theorem setPosition_plat : (setPosition s v).plat = s.plat := rfl
@[simp] theorem setPosition_resp : (setPosition s v).resp = s.resp := rfl
@[simp] theorem setPosition_idxw : (setPosition s v).idxw = s.idxw := rfl
@[simp] theorem setPosition_turns : (setPosition s v).turns = s.turns := rfl
@[simp] theorem setPosition_cmds : (setPosition s v).cmds = s.cmds := rfl
@[simp] theorem setPosition_freeCtr : (setPosition s v).freeCtr = s.freeCtr := rfl
end

section
variable (s : State) (v : Fg)
@[simp] theorem setFg_count : (setFg s v).count = s.count := rfl
@[simp] theorem setFg_buf : (setFg s v).buf = s.buf := rfl
@[simp] theorem setFg_streaming : (setFg s v).streaming = s.streaming := rfl
@[simp] theorem setFg_refreshRequested : (setFg s v).refreshRequested = s.refreshRequested := rfl
@[simp] theorem setFg_position : (setFg s v).position = s.position := rfl
@[simp] theorem setFg_rate : (setFg s v).rate = s.rate := rfl
@[simp] theorem setFg_started : (setFg s v).started = s.started := rfl
@[simp] theorem setFg_fg : (setFg s v).fg = v := rfl
@[simp] theorem setFg_bus : (setFg s v).bus = s.bus := rfl
@[simp] theorem setFg_plat : (setFg s v).plat = s.plat := rfl
@[simp] theorem setFg_resp : (setFg s v).resp = s.resp := rfl
@[simp] theorem setFg_idxw : (setFg s v).idxw = s.idxw := rfl
@[simp] theorem setFg_turns : (setFg s v).turns = s.turns := rfl
@[simp] theorem setFg_cmds : (setFg s v).cmds = s.cmds := rfl
@[simp] theorem setFg_freeCtr : (setFg s v).freeCtr = s.freeCtr := rfl
end

section
variable (s : State) (r : Response)
@[simp] theorem complete_count : (complete s r).count = s.count := rfl
@[simp] theorem complete_buf : (complete s r).buf = s.buf := rfl
@[simp] theorem complete_streaming : (complete s r).streaming = s.streaming := rfl
@[simp] theorem complete_refreshRequested : (complete s r).refreshRequested = s.refreshRequested := rfl
@[simp] theorem complete_position : (complete s r).position = s.position := rfl
@[simp] theorem complete_rate : (complete s r).rate = s.rate := rfl
@[simp] theorem complete_started : (complete s r).started = s.started := rfl
@[simp] theorem complete_fg : (complete s r).fg = s.fg := rfl
@[simp] theorem complete_bus : (complete s r).bus = s.bus := rfl
@[simp] theorem complete_plat : (complete s r).plat = s.plat := rfl
@[simp] theorem complete_resp : (complete s r).resp = s.resp ++ [r] := rfl
@[simp] theorem complete_idxw : (complete s r).idxw = s.idxw := rfl
@[simp] theorem complete_turns : (complete s r).turns = s.turns := rfl
@[simp] theorem complete_cmds : (complete s r).cmds = s.cmds := rfl
@[simp] theorem complete_freeCtr : (complete s r).freeCtr = s.freeCtr := rfl
end

section
variable (s : State) (b : Byte)
@[simp] theorem busXfer_count : (busXfer s b).count = s.count := rfl
@[simp] theorem busXfer_buf : (busXfer s b).buf = s.buf := rfl
@[simp] theorem busXfer_streaming : (busXfer s b).streaming = s.streaming := rfl
@[simp] theorem busXfer_refreshRequested : (busXfer s b).refreshRequested = s.refreshRequested := rfl
@[simp] theorem busXfer_position : (busXfer s b).position = s.position := rfl
@[simp] theorem busXfer_rate : (busXfer s b).rate = s.rate := rfl
@[simp] theorem busXfer_started : (busXfer s b).started = s.started := rfl
@[simp] theorem busXfer_fg : (busXfer s b).fg = s.fg := rfl
@[simp] theorem busXfer_bus : (busXfer s b).bus = s.bus ++ [b] := rfl
@[simp] theorem busXfer_plat : (busXfer s b).plat = s.plat := rfl
@[simp] theorem busXfer_resp : (busXfer s b).resp = s.resp := rfl
@[simp] theorem busXfer_idxw : (busXfer s b).idxw = s.idxw := rfl
@[simp] theorem busXfer_turns : (busXfer s b).turns = s.turns := rfl
@[simp] theorem busXfer_cmds : (busXfer s b).cmds = s.cmds := rfl
@[simp] theorem busXfer_freeCtr : (busXfer s b).freeCtr = s.freeCtr := rfl
end

section
variable (s : State) (w : Word)
@[simp] theorem busXferWord_count : (busXferWord s w).count = s.count := rfl
@[simp] theorem busXferWord_buf : (busXferWord s w).buf = s.buf := rfl
@[simp] theorem busXferWord_streaming : (busXferWord s w).streaming = s.streaming := rfl
@[simp] theorem busXferWord_refreshRequested : (busXferWord s w).refreshRequested = s.refreshRequested := rfl
@[simp] theorem busXferWord_position : (busXferWord s w).position = s.position := rfl
@[simp] theorem busXferWord_rate : (busXferWord s w).rate = s.rate := rfl
@[simp] theorem busXferWord_started : (busXferWord s w).started = s.started := rfl
@[simp] theorem busXferWord_fg : (busXferWord s w).fg = s.fg := rfl
@[simp] theorem busXferWord_bus : (busXferWord s w).bus = s.bus ++ [highByte w] ++ [lowByte w] := rfl
@[simp] theorem busXferWord_plat : (busXferWord s w).plat = s.plat := rfl
@[simp] theorem busXferWord_resp : (busXferWord s w).resp = s.resp := rfl
@[simp] theorem busXferWord_idxw : (busXferWord s w).idxw = s.idxw := rfl
@[simp] theorem busXferWord_turns : (busXferWord s w).turns = s.turns := rfl
@[simp] theorem busXferWord_cmds : (busXferWord s w).cmds = s.cmds := rfl
@[simp] theorem busXferWord_freeCtr : (busXferWord s w).freeCtr = s.freeCtr := rfl
end

section
variable (s : State) (us : Nat)
@[simp] theorem tickSetPeriod_count : (tickSetPeriod s us).count = s.count := rfl
@[simp] theorem tickSetPeriod_buf : (tickSetPeriod s us).buf = s.buf := rfl
@[simp] theorem tickSetPeriod_streaming : (tickSetPeriod s us).streaming = s.streaming := rfl
@[simp] theorem tickSetPeriod_refreshRequested : (tickSetPeriod s us).refreshRequested = s.refreshRequested := rfl
@[simp] theorem tickSetPeriod_position : (tickSetPeriod s us).position = s.position := rfl
@[simp] theorem tickSetPeriod_rate : (tickSetPeriod s us).rate = s.rate := rfl
@[simp] theorem tickSetPeriod_started : (tickSetPeriod s us).started = s.started := rfl
@[simp] theorem tickSetPeriod_fg : (tickSetPeriod s us).fg = s.fg := rfl
@[simp] theorem tickSetPeriod_bus : (tickSetPeriod s us).bus = s.bus := rfl
@[simp] theorem tickSetPeriod_plat : (tickSetPeriod s us).plat = s.plat ++ [.period us] := rfl
@[simp] theorem tickSetPeriod_resp : (tickSetPeriod s us).resp = s.resp := rfl
@[simp] theorem tickSetPeriod_idxw : (tickSetPeriod s us).idxw = s.idxw := rfl
@[simp] theorem tickSetPeriod_turns : (tickSetPeriod s us).turns = s.turns := rfl
@[simp] theorem tickSetPeriod_cmds : (tickSetPeriod s us).cmds = s.cmds := rfl
@[simp] theorem tickSetPeriod_freeCtr : (tickSetPeriod s us).freeCtr = s.freeCtr := rfl
end

section
variable (s : State) (o c d : Nat)
@[simp] theorem busConfigure_count : (busConfigure s o c d).count = s.count := rfl
@[simp] theorem busConfigure_buf : (busConfigure s o c d).buf = s.buf := rfl
@[simp] theorem busConfigure_streaming : (busConfigure s o c d).streaming = s.streaming := rfl
@[simp] theorem busConfigure_refreshRequested : (busConfigure s o c d).refreshRequested = s.refreshRequested := rfl
@[simp] theorem busConfigure_position : (busConfigure s o c d).position = s.position := rfl
@[simp] theorem busConfigure_rate : (busConfigure s o c d).rate = s.rate := rfl
@[simp] theorem busConfigure_started : (busConfigure s o c d).started = s.started := rfl
@[simp] theorem busConfigure_fg : (busConfigure s o c d).fg = s.fg := rfl
@[simp] theorem busConfigure_bus : (busConfigure s o c d).bus = s.bus := rfl
@[simp] theorem busConfigure_plat : (busConfigure s o c d).plat = s.plat ++ [.cfg o c d] := rfl
@[simp] theorem busConfigure_resp : (busConfigure s o c d).resp = s.resp := rfl
@[simp] theorem busConfigure_idxw : (busConfigure s o c d).idxw = s.idxw := rfl
@[simp] theorem busConfigure_turns : (busConfigure s o c d).turns = s.turns := rfl
@[simp] theorem busConfigure_cmds : (busConfigure s o c d).cmds = s.cmds := rfl
@[simp] theorem busConfigure_freeCtr : (busConfigure s o c d).freeCtr = s.freeCtr := rfl
end

end Sys2Proof.Machine
end

