-- ==== Sys2Proof/Laws/Step.lean ====
section
/-! SUPPORT. Everything one step can do: what each kind of turn leads to. -/

namespace Sys2Proof.Machine

theorem ifZero_ok {z : Bool} {op : BitVec 4} {i j : Instr} (h : ifZero z op i = .ok j) : z = true ∧ j = i := by
  unfold ifZero at h
  split at h
  · cases h; exact ⟨‹_›, rfl⟩
  · cases h

/-- What the command port decodes to is a command. -/
theorem decode_command_isCommand {idxw w : Nat} {i : Instr} (h : decode idxw (.command w) = .ok i) :
    isCommand i = true := by
  simp only [decode, decodeCommand] at h
  split at h
  · unfold decodeFields at h
    split at h
    · rw [(ifZero_ok h).2]; rfl
    · rw [(ifZero_ok h).2]; rfl
    · rw [(ifZero_ok h).2]; rfl
    · cases h; rfl
    · rw [(ifZero_ok h).2]; rfl
    · rw [(ifZero_ok h).2]; rfl
    · cases h
  · cases h

theorem decode_strobe_high (idxw : Nat) : decode idxw (.strobe 1#1) = .ok .tick := rfl

theorem decode_resetLine_high (idxw c : Nat) : decode idxw (.resetLine 1#1 c) = .ok (.construct c) := rfl

theorem level_low {level : BitVec 1} (h : level ≠ 1#1) : level = 0#1 := by
  revert h; revert level; decide

/-- A refused input gives a next state only when its line is low. -/
theorem rejectInput_next {e : DecodeError} {s t : State} (h : rejectInput e s = .next t) : t = s := by
  cases e <;> cases h
  rfl

theorem rejectInput_ne_fault (e : DecodeError) (s : State) (r : Fault) : rejectInput e s ≠ .fault r := by
  cases e <;> simp [rejectInput]

theorem fetchForeground_issue {s : State} {w : Nat} {cmds : List Nat} (hf : s.fg = .ready) (hc : s.cmds = w :: cmds) :
    fetchForeground s = .input (.command w) { s with cmds := cmds } := by
  simp only [fetchForeground, hf, hc]

theorem fetchForeground_resume {s : State} (h : s.fg = .ready → s.cmds = []) : fetchForeground s = .resume s := by
  unfold fetchForeground
  split <;> simp_all

/-- A foreground turn that issues nothing goes on with the SETPIX in progress. -/
theorem step_resume {s : State} {turns : List Turn} (ht : s.turns = .foreground :: turns)
    (h : s.fg = .ready → s.cmds = []) : step s = resumeForeground { s with turns := turns } := by
  have hr := fetchForeground_resume (s := { s with turns := turns }) h
  simp only [step, fetch, ht, hr]

/-- A foreground turn at a ready port presents the next command word. -/
theorem step_issue {s : State} {turns : List Turn} {w : Nat} {cmds : List Nat} (ht : s.turns = .foreground :: turns)
    (hf : s.fg = .ready) (hc : s.cmds = w :: cmds) :
    step s = match decode s.idxw (.command w) with
      | .ok i => exec i { s with turns := turns, cmds := cmds }
      | .error e => rejectInput e { s with turns := turns, cmds := cmds } := by
  have hr := fetchForeground_issue (s := { s with turns := turns }) hf hc
  simp only [step, fetch, ht, hr] <;> cases decode s.idxw (.command w) <;> rfl

theorem step_strobe_high {s : State} {turns : List Turn} (ht : s.turns = .strobe 1#1 :: turns) :
    step s = execTick { s with turns := turns } := by
  simp only [step, fetch, ht, decode_strobe_high]; rfl

theorem step_strobe_low {s : State} {turns : List Turn} (ht : s.turns = .strobe 0#1 :: turns) :
    step s = .next { s with turns := turns } := by
  simp only [step, fetch, ht]; rfl

theorem step_resetLine_high {s : State} {turns : List Turn} {c : Nat} (ht : s.turns = .resetLine 1#1 c :: turns) :
    step s = execConstruct c { s with turns := turns } := by
  simp only [step, fetch, ht, decode_resetLine_high]; rfl

theorem step_resetLine_low {s : State} {turns : List Turn} {c : Nat} (ht : s.turns = .resetLine 0#1 c :: turns) :
    step s = .next { s with turns := turns } := by
  simp only [step, fetch, ht]; rfl

/-- Everything a step can do when it answers a next state: a command is issued, the foreground goes on, a tick is
delivered, the block is reset, or a low line passes. -/
theorem step_next {s t : State} (h : step s = .next t) :
    (∃ turns w cmds i, s.turns = .foreground :: turns ∧ s.fg = .ready ∧ s.cmds = w :: cmds ∧
      decode s.idxw (.command w) = .ok i ∧ isCommand i = true ∧
      exec i { s with turns := turns, cmds := cmds } = .next t) ∨
    (∃ turns, s.turns = .foreground :: turns ∧ (s.fg = .ready → s.cmds = []) ∧
      resumeForeground { s with turns := turns } = .next t) ∨
    (∃ turns, s.turns = .strobe 1#1 :: turns ∧ execTick { s with turns := turns } = .next t) ∨
    (∃ turns c, s.turns = .resetLine 1#1 c :: turns ∧ execConstruct c { s with turns := turns } = .next t) ∨
    (∃ turns, (s.turns = .strobe 0#1 :: turns ∨ ∃ c, s.turns = .resetLine 0#1 c :: turns) ∧
      t = { s with turns := turns }) := by
  rcases ht : s.turns with _ | ⟨turn, turns⟩
  · simp only [step, fetch, ht] at h; cases h
  cases turn with
  | foreground =>
    by_cases hf : s.fg = .ready
    · obtain hc | ⟨w, cmds, hc⟩ : s.cmds = [] ∨ ∃ w cmds, s.cmds = w :: cmds := by cases s.cmds <;> simp
      · rw [step_resume ht (fun _ => hc)] at h
        exact .inr (.inl ⟨turns, rfl, fun _ => hc, h⟩)
      · rw [step_issue ht hf hc] at h
        split at h
        · rename_i i hd
          exact .inl ⟨turns, w, cmds, i, rfl, hf, hc, hd, decode_command_isCommand hd, h⟩
        · rename_i e hd
          have := rejectInput_next h
          simp only [decode, decodeCommand] at hd
          exfalso
          cases e <;> cases h
          split at hd
          · unfold decodeFields at hd
            split at hd <;> (try unfold ifZero at hd) <;> (try split at hd) <;> cases hd
          · cases hd
    · rw [step_resume ht (fun h' => absurd h' hf)] at h
      exact .inr (.inl ⟨turns, rfl, fun h' => absurd h' hf, h⟩)
  | strobe level =>
    by_cases hl : level = 1#1
    · subst hl; rw [step_strobe_high ht] at h
      exact .inr (.inr (.inl ⟨turns, rfl, h⟩))
    · have hl := level_low hl
      subst hl; rw [step_strobe_low ht] at h; cases h
      exact .inr (.inr (.inr (.inr ⟨turns, .inl rfl, rfl⟩)))
  | resetLine level c =>
    by_cases hl : level = 1#1
    · subst hl; rw [step_resetLine_high ht] at h
      exact .inr (.inr (.inr (.inl ⟨turns, c, rfl, h⟩)))
    · have hl := level_low hl
      subst hl; rw [step_resetLine_low ht] at h; cases h
      exact .inr (.inr (.inr (.inr ⟨turns, .inr ⟨c, rfl⟩, rfl⟩)))

/-! ## Runs and iterated ticks -/

theorem steps_zero (s : State) : steps 0 s = .next s := rfl

/-- A run goes on from the state its first step leads to. -/
theorem steps_succ_of_step {n : Nat} {s u : State} (h : step s = .next u) : steps (n + 1) s = steps n u := by
  simp only [steps, h]

/-- A run that answers a next state took a first step. -/
theorem steps_succ_next {n : Nat} {s t : State} (h : steps (n + 1) s = .next t) :
    ∃ u : State, step s = .next u ∧ steps n u = .next t := by
  rcases hs : step s with u | r | r <;> simp only [steps, hs] at h
  · exact ⟨u, rfl, h⟩
  · cases h
  · cases h

theorem ticks_zero (s : State) : ticks 0 s = .next s := rfl

theorem ticks_succ_of_tick {n : Nat} {s u : State} (h : execTick s = .next u) : ticks (n + 1) s = ticks n u := by
  simp only [ticks, exec, h]

/-- Ticks after ticks. -/
theorem ticks_add {n k : Nat} : ∀ {s u : State}, ticks n s = .next u → ticks (n + k) s = ticks k u := by
  induction n with
  | zero => intro s u h; cases h; rw [Nat.zero_add]
  | succ n ih =>
    intro s u h
    rcases hx : execTick s with v | r | r
    · rw [ticks_succ_of_tick hx] at h
      rw [Nat.add_right_comm, ticks_succ_of_tick hx]
      exact ih h
    · simp only [ticks, exec, hx] at h; cases h
    · simp only [ticks, exec, hx] at h; cases h

end Sys2Proof.Machine
end

