-- ==== Sys2Proof/Tests/Slice0.lean ====
section
/-! SUPPORT. Tests: ill-formed terms, command words written out from spec/30_encoding.md and spec/95_test_vectors.md, one
step of each instruction against 95_test_vectors.md, and a witness for the hypotheses of each statement. Expected values
come from the spec, the vector's name stands in the comment. -/

namespace Sys2Proof.Tests
open Sys2Proof.Machine

/-! ## Helpers -/

/-- The next state of an outcome, if there is one. -/
def nextOf : Host.Outcome State Fault Refusal → Option State
  | .next s => some s
  | .fault _ => none
  | .refused _ => none

/-- The refusal of an outcome, if there is one. -/
def refusalOf : Host.Outcome State Fault Refusal → Option Refusal
  | .next _ => none
  | .fault _ => none
  | .refused r => some r

/-- Three pixels, the tick source started, Idle, nothing pending (the start of 95_test_vectors.md 2.4). -/
def idle : State where
  count := 3
  buf := [(1, 0xFC00#16), (2, 0x801F#16)]
  streaming := false
  refreshRequested := false
  position := 7
  rate := 50#7
  started := true
  fg := .ready
  bus := []
  plat := []
  resp := []
  idxw := 16
  turns := []
  cmds := []
  freeCtr := 0

/-- The same in a pass, with the cursor at `p`. -/
def inPass (p : Nat) : State := { idle with streaming := true, position := p }

/-- The same with a request pending. -/
def pending : State := { idle with refreshRequested := true }

/-- The same before BEGIN. -/
def stopped : State := { idle with started := false }

/-- In a pass with a SETPIX held at the gate, or granted, at index 0. -/
def held (p : Nat) : State := { inPass p with fg := .waitGate 0 0x801F#16 }

def granted (p : Nat) : State := { inPass p with fg := .granted 0 0x801F#16 }

theorem idle_inv : Inv idle := ⟨by decide, by decide, by decide, by decide, by decide, by decide, by decide, by decide, by decide⟩

theorem pending_inv : Inv pending := ⟨by decide, by decide, by decide, by decide, by decide, by decide, by decide, by decide, by decide⟩

theorem stopped_inv : Inv stopped := ⟨by decide, by decide, by decide, by decide, by decide, by decide, by decide, by decide, by decide⟩

theorem inPass_inv : Inv (inPass 2) := ⟨by decide, by decide, by decide, by decide, by decide, by decide, by decide, by decide, by decide⟩

theorem granted_inv : Inv (granted 1) := ⟨by decide, by decide, by decide, by decide, by decide, by decide, by decide, by decide, by decide⟩

/-! ## Ill-formed terms -/

theorem test_wf_rgb_index_too_wide : Instr.wf 16 (.setpixRgb 65536 0#8 0#8 0#8) = false := by decide
theorem test_wf_packed_index_too_wide : Instr.wf 16 (.setpixPacked 65536 0#16) = false := by decide
theorem test_wf_largest_index : Instr.wf 16 (.setpixRgb 65535 0#8 0#8 0#8) = true := by decide

/-! ## Command words and events (V-CW1 to V-CW20, R73) -/

theorem test_decode_begin : decodeTableWord 48 0x10000000000 = some .begin := by decide
theorem test_decode_setrate_100 : decodeTableWord 48 0x20000000064 = some (.setrate 100#7) := by decide
theorem test_decode_setrate_0 : decodeTableWord 48 0x20000000000 = some (.setrate 0#7) := by decide
theorem test_decode_setrate_101 : decodeTableWord 48 0x20000000065 = some (.setrate 101#7) := by decide
theorem test_decode_pixcount : decodeTableWord 48 0x30000000000 = some .pixcount := by decide
theorem test_decode_rgb_green : decodeTableWord 48 0x40000001F00 = some (.setpixRgb 0 0#8 31#8 0#8) := by decide
theorem test_decode_rgb_all : decodeTableWord 48 0x4FFFF010203 = some (.setpixRgb 65535 1#8 2#8 3#8) := by decide
theorem test_decode_packed : decodeTableWord 48 0x50001007C00 = some (.setpixPacked 1 0x7C00#16) := by decide
theorem test_decode_refresh : decodeTableWord 48 0x60000000000 = some .refresh := by decide
theorem test_decode_tick : decodeTableWord 8 1 = some .tick := by decide
theorem test_decode_construct : (decode 16 (.resetLine 1#1 3)).toOption = some (.construct 3) := by decide
theorem test_decode_op_0 : decode 16 (.command 0x00000000000) = .error (.reservedOp 0x0#4) := rfl
theorem test_decode_op_7 : decode 16 (.command 0x70000000000) = .error (.reservedOp 0x7#4) := rfl
theorem test_decode_op_15 : decode 16 (.command 0xF0000000000) = .error (.reservedOp 0xF#4) := rfl
theorem test_decode_begin_dat : decode 16 (.command 0x10000000001) = .error (.nonZeroField 0x1#4) := rfl
theorem test_decode_refresh_idx : decode 16 (.command 0x60001000000) = .error (.nonZeroField 0x6#4) := rfl
theorem test_decode_packed_hi : decode 16 (.command 0x50001FF7C00) = .error (.nonZeroField 0x5#4) := rfl
theorem test_decode_setrate_hi : decode 16 (.command 0x20000000080) = .error (.nonZeroField 0x2#4) := rfl
theorem test_decode_too_wide : decode 16 (.command 0x110000000000) = .error .tooWide := rfl
/-- Another width (R69): at `IDXW = 8` the word has 36 bits, `op` at 35:32, `idx` at 31:24. -/
theorem test_decode_idxw_8 : (decode 8 (.command 0x502007C00)).toOption = some (.setpixPacked 2 0x7C00#16) := by decide

/-! ## Packing and bytes (V-PK8, V-PK9, V-PK7, V-PR2, V-BS4) -/

theorem test_pack_mixed : packRgb 33#8 66#8 133#8 = 0x88A1#16 := by decide
theorem test_pack_order : packRgb 1#8 2#8 3#8 = 0x8861#16 := by decide
theorem test_pack_low_bits_kept : packRgb 224#8 224#8 224#8 = 0x8000#16 := by decide
theorem test_pack_raw : packRaw 0x7FFF#16 = 0xFFFF#16 := by decide
theorem test_bus_bytes : busBytes 0x9234#16 = [0x92#8, 0x34#8] := by decide

/-- V-SR4, with the example value 40. -/
theorem test_period : [100#7, 99#7, 50#7, 33#7, 7#7, 1#7].map (periodWith 40) = [40, 40, 80, 121, 571, 4000] := by decide

/-! ## One step of each instruction -/

/-- V-TK1. -/
theorem test_tick_idle : (nextOf (exec .tick idle)).map (·.bus) = some [0x00#8] := by decide
/-- V-TK2. -/
theorem test_tick_start : (nextOf (exec .tick pending)).map (fun t => (t.bus, t.streaming, t.refreshRequested, t.position))
    = some ([0x00#8], true, false, 0) := by decide
/-- V-TK4. -/
theorem test_tick_word : (nextOf (exec .tick (inPass 1))).map (fun t => (t.bus, t.streaming, t.position))
    = some ([0xFC#8, 0x00#8], true, 2) := by decide
/-- V-TK5. -/
theorem test_tick_last : (nextOf (exec .tick (inPass 2))).map (fun t => (t.bus, t.streaming))
    = some ([0x80#8, 0x1F#8], false) := by decide
/-- V-BG1. -/
theorem test_begin : (nextOf (exec .begin stopped)).map (fun t => (t.started, t.bus, t.plat.length)) = some (true, [], 3) := by
  decide
/-- V-BG2. -/
theorem test_begin_twice : refusalOf (exec .begin idle) = some .secondBegin := by decide
/-- V-SR2. -/
theorem test_setrate : (nextOf (exec (.setrate 100#7) (inPass 1))).map (fun t => (t.rate, t.streaming, t.position, t.bus))
    = some (100#7, true, 1, []) := by decide
/-- V-SR3. -/
theorem test_setrate_101 : refusalOf (exec (.setrate 101#7) idle) = some .percentOutOfRange := by decide
/-- V-PC2, with COUNT 300. -/
theorem test_pixcount : (nextOf (exec .pixcount { inPass 1 with count := 300 })).map (·.resp) = some [.doneValue 300] := by
  decide
/-- V-RF3. -/
theorem test_refresh : (nextOf (exec .refresh (inPass 1))).map (fun t => (t.refreshRequested, t.streaming, t.position))
    = some (true, true, 1) := by decide
/-- V-IDX4. -/
theorem test_rgb_out_of_range : (nextOf (exec (.setpixRgb 3 1#8 1#8 1#8) (inPass 1))).map (fun t => (t.fg, t.buf, t.resp))
    = some (.ready, [(1, 0xFC00#16), (2, 0x801F#16)], [.done]) := by decide
/-- V-HD1, the issue. -/
theorem test_rgb_held : (nextOf (exec (.setpixRgb 0 31#8 0#8 0#8) (inPass 1))).map (·.fg)
    = some (.waitGate 0 0x801F#16) := by decide
/-- V-IDX1, the issue at index COUNT-1. -/
theorem test_packed_last_index : (nextOf (exec (.setpixPacked 2 0#16) idle)).map (·.fg)
    = some (.waitGate 2 0x8000#16) := by decide
/-- V-IDX3. -/
theorem test_packed_out_of_range : (nextOf (exec (.setpixPacked 0xFFFF 0x7FFF#16) idle)).map (·.fg) = some .ready := by
  decide
/-- V-CN1, with a SETPIX held. -/
theorem test_construct : (nextOf (exec (.construct 3) (held 1))).map
    (fun t => (t.count, t.buf, t.started, t.fg)) = some (3, [], false, .ready) := by decide
/-- V-CN2. -/
theorem test_construct_65536 : refusalOf (exec (.construct 65536) idle) = some .countOutOfRange := by decide
/-- WRITE in a running pass (R106, P4): index 0 was unlisted. -/
theorem test_write : (nextOf (step { granted 1 with turns := [.foreground] })).map (fun t => (t.buf, t.fg, t.streaming))
    = some ([(0, 0x801F#16), (1, 0xFC00#16), (2, 0x801F#16)], .ready, true) := by decide
/-- Writing black removes the entry (V-SP2's store, back to reset contents). -/
theorem test_write_black : Memory.write [(1, 0xFC00#16), (2, 0x801F#16)] 1 0x8000#16 = [(2, 0x801F#16)] := by decide
/-- The placed word of V-CW11 runs as the first instruction after reset. -/
theorem test_fetch_word : (nextOf (step (State.reset.withFetchWord 48 0x60000000000))).map (·.refreshRequested) = some true := by
  decide
/-- The placed strobe runs as the first instruction after reset. -/
theorem test_fetch_tick : (nextOf (step (State.reset.withFetchWord 8 1))).map (·.bus) = some [0x00#8] := by decide

/-! ## Witnesses: states and operands that meet the hypotheses of each statement -/

theorem witness_DecodeOfEncodeIsTheInstruction : Instr.wf 16 (.setpixRgb 65535 1#8 2#8 3#8) = true := by decide
theorem witness_EncodeOfDecodeIsTheInput : ∃ i, decode 16 (.command 0x4FFFF010203) = .ok i := ⟨_, rfl⟩
theorem witness_ReservedWordIsRefused : ∃ (s : State) (w : Nat) (turns : List Turn) (cmds : List Nat),
    s.turns = .foreground :: turns ∧ s.fg = .ready ∧ s.cmds = w :: cmds ∧ w < 2 ^ (28 + s.idxw) ∧
    (splitCommand s.idxw w).op.toNat = 0 :=
  ⟨{ idle with turns := [.foreground], cmds := [0] }, 0, [], [], by decide⟩
theorem witness_ReservedWordIsRefused_fields :
    (splitCommand 16 0x70000000000).op.toNat = 7 ∧
    ((splitCommand 16 0x10000000001).op = 0x1#4 ∧ (splitCommand 16 0x10000000001).dat ≠ 0#24) ∧
    ((splitCommand 16 0x60001000000).op = 0x6#4 ∧ (splitCommand 16 0x60001000000).idx ≠ 0) ∧
    ((splitCommand 16 0x20000000080).op = 0x2#4 ∧ (splitCommand 16 0x20000000080).dat.extractLsb' 7 17 ≠ 0#17) ∧
    ((splitCommand 16 0x50001FF7C00).op = 0x5#4 ∧ (splitCommand 16 0x50001FF7C00).dat.extractLsb' 16 8 ≠ 0#8) := by decide
theorem witness_PeriodOfIsFlooredReciprocal :
    1 ≤ (1#7).toNat ∧ (1#7).toNat ≤ (100#7).toNat ∧ (100#7).toNat ≤ 100 := by decide
theorem witness_TimingContractHardestAtFullRate : percentLegal 1#7 = true ∧ hPeriod 40 10 5 100#7 := by
  refine ⟨by decide, ?_⟩
  unfold hPeriod; decide
theorem witness_StoreReadAfterWrite : Memory.wf [(1, 0xFC00#16), (2, 0x801F#16)] = true := by decide
theorem witness_StoresThatReadAlikeAreEqual : Memory.wf idle.buf = true ∧ ∀ i, Memory.read idle.buf i = Memory.read idle.buf i :=
  ⟨by decide, fun _ => rfl⟩
theorem witness_BeginStartsTheTickSource : stopped.fg = .ready ∧ stopped.started = false := by decide
theorem witness_SecondBeginIsRefused : idle.fg = .ready ∧ idle.started = true := by decide
theorem witness_SetrateStoresAndPrograms : idle.fg = .ready ∧ 1 ≤ (1#7).toNat ∧ (1#7).toNat ≤ 100 ∧
    1 ≤ (100#7).toNat ∧ (100#7).toNat ≤ 100 := by decide
theorem witness_SetrateOutOfRangeIsRefused : idle.fg = .ready ∧ (0#7).toNat = 0 ∧ 100 < (101#7).toNat ∧
    1 ≤ idle.rate.toNat ∧ idle.rate.toNat ≤ 100 ∧ (nextOf (exec .refresh idle)).isSome = true := by decide
theorem witness_PixcountReturnsCount : idle.fg = .ready := by decide
theorem witness_RefreshSetsTheRequest : (inPass 1).fg = .ready := by decide
theorem witness_SetpixIssueChecksTheBound : (inPass 1).fg = .ready ∧ (inPass 1).count ≤ 3 ∧ 2 < (inPass 1).count := by decide
theorem witness_SetpixRgbCompletesInThreeTurns : ∃ (s : State) (w index : Nat) (r g b : BitVec 8) (turns : List Turn)
    (cmds : List Nat), s.fg = .ready ∧ s.streaming = false ∧ index < s.count ∧ Memory.wf s.buf = true ∧
    s.turns = .foreground :: .foreground :: .foreground :: turns ∧ s.cmds = w :: cmds ∧
    decode s.idxw (.command w) = .ok (.setpixRgb index r g b) :=
  ⟨{ idle with turns := [.foreground, .foreground, .foreground], cmds := [0x400021F0000] }, 0x400021F0000, 2, 31#8, 0#8, 0#8,
    [], [], rfl, rfl, by decide, by decide, rfl, rfl, rfl⟩
theorem witness_SetpixPackedCompletesInThreeTurns : ∃ (s : State) (w index : Nat) (v : BitVec 16) (turns : List Turn)
    (cmds : List Nat), s.fg = .ready ∧ s.streaming = false ∧ index < s.count ∧ Memory.wf s.buf = true ∧
    s.turns = .foreground :: .foreground :: .foreground :: turns ∧ s.cmds = w :: cmds ∧
    decode s.idxw (.command w) = .ok (.setpixPacked index v) :=
  ⟨{ idle with turns := [.foreground, .foreground, .foreground], cmds := [0x50001007C00] }, 0x50001007C00, 1, 0x7C00#16,
    [], [], rfl, rfl, by decide, by decide, rfl, rfl, rfl⟩
theorem witness_GatePassesWhenIdle : ∃ (s : State) (i : Nat) (w : Word) (turns : List Turn),
    s.turns = .foreground :: turns ∧ s.fg = .waitGate i w ∧ s.streaming = false :=
  ⟨{ idle with turns := [.foreground], fg := .waitGate 0 0x801F#16 }, 0, 0x801F#16, [], rfl, rfl, rfl⟩
theorem witness_HeldForegroundHasNoStep : ∃ (n : Nat) (s : State) (i : Nat) (w : Word) (turns : List Turn),
    s.turns = List.replicate n .foreground ++ turns ∧ s.fg = .waitGate i w ∧ s.streaming = true ∧ 0 < n :=
  ⟨2, { held 1 with turns := [.foreground, .foreground] }, 0, 0x801F#16, [], rfl, rfl, rfl, by decide⟩
theorem witness_WriteStoresTheGrantedWord : ∃ (s : State) (i : Nat) (w : Word) (turns : List Turn),
    s.turns = .foreground :: turns ∧ s.fg = .granted i w ∧ i < s.count ∧ Memory.wf s.buf = true :=
  ⟨{ granted 1 with turns := [.foreground] }, 0, 0x801F#16, [], rfl, rfl, by decide, by decide⟩
theorem witness_CommandWaitsWhilePortInUse : isCommand .refresh = true ∧ (held 1).fg ≠ .ready := by decide
theorem witness_ConstructResetsEverything : 1 ≤ 1 ∧ 1 ≤ 2 ^ (held 1).idxw - 1 ∧ 1 ≤ 65535 ∧ 65535 ≤ 2 ^ (held 1).idxw - 1 := by
  decide
theorem witness_ConstructKeepsTheOutside : ∃ t, exec (.construct 65535) (held 1) = .next t := ⟨_, rfl⟩
theorem witness_ConstructOutOfRangeIsRefused : 2 ^ idle.idxw - 1 < 65536 := by decide
theorem witness_CommandFrame : ∃ t, isCommand .refresh = true ∧ exec .refresh (inPass 1) = .next t := ⟨_, rfl, rfl⟩
theorem witness_TickIdleSendsOneFiller : idle.started = true ∧ idle.streaming = false ∧ idle.refreshRequested = false := by
  decide
theorem witness_TickStartBeginsAPass :
    pending.started = true ∧ pending.streaming = false ∧ pending.refreshRequested = true := by decide
theorem witness_TickWordSendsAndAdvances :
    (inPass 1).started = true ∧ (inPass 1).streaming = true ∧ (inPass 1).position + 1 < (inPass 1).count := by decide
theorem witness_TickLastEndsThePass :
    (inPass 2).started = true ∧ (inPass 2).streaming = true ∧ (inPass 2).position + 1 = (inPass 2).count := by decide
theorem witness_TickWithoutWordIsRefusedAndUnreachable :
    ((inPass 3).started = true ∧ (inPass 3).streaming = true ∧ (inPass 3).count ≤ (inPass 3).position) ∧ Inv (inPass 2) :=
  ⟨by decide, inPass_inv⟩
theorem witness_TickBeforeBeginIsNoStep : stopped.started = false := by decide
theorem witness_TickFrame : ∃ t, exec .tick (held 1) = .next t := ⟨_, rfl⟩
theorem witness_TickReadsOnlySharedState : (held 1).started = (inPass 1).started ∧
    (held 1).streaming = (inPass 1).streaming ∧ (held 1).refreshRequested = (inPass 1).refreshRequested ∧
    (held 1).position = (inPass 1).position ∧ (held 1).count = (inPass 1).count ∧ (held 1).buf = (inPass 1).buf ∧
    ∃ t, exec .tick (inPass 1) = .next t := ⟨rfl, rfl, rfl, rfl, rfl, rfl, _, rfl⟩
theorem witness_TickSendsOneOrTwoBytes :
    (∃ t, idle.started = true ∧ exec .tick idle = .next t ∧ idle.streaming = false) ∧
    (∃ t, (inPass 1).started = true ∧ exec .tick (inPass 1) = .next t ∧ (inPass 1).streaming = true) :=
  ⟨⟨_, rfl, rfl, rfl⟩, ⟨_, rfl, rfl, rfl⟩⟩
theorem witness_PassSendsTheWholeStore :
    Inv pending ∧ pending.started = true ∧ pending.streaming = false ∧ pending.refreshRequested = true :=
  ⟨pending_inv, by decide⟩
theorem witness_PassRunsUntilItsLastTick :
    Inv pending ∧ pending.started = true ∧ pending.streaming = false ∧ pending.refreshRequested = true ∧
    (1 ≤ 1 ∧ 1 ≤ pending.count) ∧ 1 ≤ 3 ∧ 3 ≤ pending.count := ⟨pending_inv, by decide⟩
theorem witness_PendingRequestStartsPassAtOnce : ∃ s : State, Inv s ∧ s.streaming = true ∧ s.refreshRequested = true ∧
    s.position + 1 = s.count :=
  ⟨{ inPass 2 with refreshRequested := true },
    ⟨by decide, by decide, by decide, by decide, by decide, by decide, by decide, by decide, by decide⟩, rfl, rfl, rfl⟩
theorem witness_GateOpensForGoodWithinTwoPasses : Inv (inPass 2) ∧ (inPass 2).streaming = true := ⟨inPass_inv, rfl⟩
theorem witness_EarlyRefreshStartsTheFirstPass : Inv stopped ∧ stopped.started = false ∧ stopped.fg = .ready :=
  ⟨stopped_inv, by decide⟩
theorem witness_StepRunsTheDecodedInstruction :
    (∃ (s : State) (w : Nat) (turns : List Turn) (cmds : List Nat) (i : Instr), s.turns = .foreground :: turns ∧
      s.fg = .ready ∧ s.cmds = w :: cmds ∧ decode s.idxw (.command w) = .ok i) ∧
    (∃ (s : State) (turns : List Turn) (l : BitVec 1) (i : Instr), s.turns = .strobe l :: turns ∧
      decode s.idxw (.strobe l) = .ok i) ∧
    (∃ (s : State) (turns : List Turn) (l : BitVec 1) (c : Nat) (i : Instr), s.turns = .resetLine l c :: turns ∧
      decode s.idxw (.resetLine l c) = .ok i) ∧
    (∃ (s : State) (turns : List Turn), s.turns = .strobe 0#1 :: turns) ∧
    (∃ (s : State) (turns : List Turn) (c : Nat), s.turns = .resetLine 0#1 c :: turns) :=
  ⟨⟨{ idle with turns := [.foreground], cmds := [0x60000000000] }, _, _, _, _, rfl, rfl, rfl, rfl⟩,
    ⟨{ idle with turns := [.strobe 1#1] }, _, _, _, rfl, rfl⟩, ⟨{ idle with turns := [.resetLine 1#1 3] }, _, _, _, _, rfl, rfl⟩,
    ⟨{ idle with turns := [.strobe 0#1] }, _, rfl⟩, ⟨{ idle with turns := [.resetLine 0#1 3] }, _, _, rfl⟩⟩
theorem witness_PlacedWordRunsNext : idle.idxw = Config.referenceIdxw ∧
    decodeTableWord 48 0x60000000000 = some .refresh ∧ decodeTableWord 8 1 = some .tick := by decide
theorem witness_StepKeepsTheInvariant : ∃ t, Inv { pending with turns := [.strobe 1#1] } ∧
    step { pending with turns := [.strobe 1#1] } = .next t :=
  ⟨_, ⟨by decide, by decide, by decide, by decide, by decide, by decide, by decide, by decide, by decide⟩, rfl⟩
theorem witness_EveryPixelWordIsMarked : Inv idle ∧ 2 < idle.count := ⟨idle_inv, by decide⟩
theorem witness_StepNeverFaults : Inv (granted 1) := granted_inv
theorem witness_StepKeepsTheBusFraming : ∃ t, Inv { pending with turns := [.strobe 1#1] } ∧
    BusFramed { pending with turns := [.strobe 1#1] } ∧ step { pending with turns := [.strobe 1#1] } = .next t :=
  ⟨_, ⟨by decide, by decide, by decide, by decide, by decide, by decide, by decide, by decide, by decide⟩, .empty, rfl⟩
theorem witness_OnlyTicksMoveTheStateMachine : ∃ t, noReset { pending with turns := [.strobe 1#1] } ∧
    step { pending with turns := [.strobe 1#1] } = .next t ∧ t.streaming ≠ pending.streaming ∧
    t.position ≠ pending.position ∧ pending.refreshRequested = true ∧ t.refreshRequested = false :=
  ⟨_, by simp [noReset, Turn.isReset], rfl, by decide, by decide, rfl, rfl⟩
theorem witness_CountIsFixedAndTicksNeverStop : ∃ t, noReset { idle with turns := [.strobe 1#1] } ∧
    step { idle with turns := [.strobe 1#1] } = .next t ∧ idle.started = true :=
  ⟨_, by simp [noReset, Turn.isReset], rfl, rfl⟩
theorem witness_RequestFlagIsAMailbox : ∃ t, noReset { idle with turns := [.foreground], cmds := [0x60000000000] } ∧
    step { idle with turns := [.foreground], cmds := [0x60000000000] } = .next t ∧ idle.refreshRequested = false ∧
    t.refreshRequested = true :=
  ⟨_, by simp [noReset, Turn.isReset], rfl, rfl, rfl⟩
theorem witness_StoreAndBusHaveOneWriter :
    (∃ t, noReset { granted 1 with turns := [.foreground] } ∧ step { granted 1 with turns := [.foreground] } = .next t ∧
      t.buf ≠ (granted 1).buf) ∧
    (∃ t, noReset { idle with turns := [.strobe 1#1] } ∧ step { idle with turns := [.strobe 1#1] } = .next t ∧
      t.bus ≠ idle.bus) :=
  ⟨⟨_, by simp [noReset, Turn.isReset], rfl, by decide⟩, ⟨_, by simp [noReset, Turn.isReset], rfl, by decide⟩⟩

/-- One step of a running pass that stays in it. -/
theorem passRunsThrough_one {s u : State} (hs : s.streaming = true) (h : step s = .next u) (hu : u.streaming = true) :
    passRunsThrough 1 s := by
  intro m hm v hv
  obtain rfl | rfl : m = 0 ∨ m = 1 := by omega
  · cases hv; exact hs
  · rw [steps_succ_of_step h] at hv; cases hv; exact hu

theorem witness_PassKeepsTheStore : ∃ s t : State, noReset s ∧ s.streaming = true ∧ (∀ i w, s.fg ≠ .granted i w) ∧
    passRunsThrough 1 s ∧ steps 1 s = .next t :=
  ⟨{ held 1 with turns := [.strobe 1#1] }, _, by simp [noReset, Turn.isReset], rfl, nofun,
    passRunsThrough_one rfl rfl rfl, rfl⟩
theorem witness_AtMostOneWordChangesInAPass : ∃ (s t : State) (i : Nat) (w : Word), Inv s ∧ noReset s ∧
    s.streaming = true ∧ s.fg = .granted i w ∧ passRunsThrough 1 s ∧ steps 1 s = .next t :=
  ⟨{ granted 1 with turns := [.foreground] }, _, _, _,
    ⟨by decide, by decide, by decide, by decide, by decide, by decide, by decide, by decide, by decide⟩,
    by simp [noReset, Turn.isReset], rfl, rfl, passRunsThrough_one rfl rfl rfl, rfl⟩
theorem witness_RateHasNoFunctionalEffect : ∃ s t : State, steps 2 s = .next t :=
  ⟨{ idle with turns := [.foreground, .strobe 1#1], cmds := [0x20000000032] }, _, rfl⟩
theorem witness_BeforeBeginSetpixNeverWaits : Inv stopped ∧ stopped.started = false ∧
    ∃ (s : State) (i : Nat) (w : Word) (turns : List Turn), Inv s ∧ s.started = false ∧
      s.turns = .foreground :: turns ∧ s.fg = .waitGate i w :=
  ⟨stopped_inv, rfl, { stopped with turns := [.foreground], fg := .waitGate 0 0x801F#16 }, 0, 0x801F#16, [],
    ⟨by decide, by decide, by decide, by decide, by decide, by decide, by decide, by decide, by decide⟩, rfl, rfl, rfl⟩

end Sys2Proof.Tests
end

section
/-! The timing contract of the platform over the legal rates (R7, R160). -/

namespace Sys2Proof.Machine

theorem percentLegal_iff {p : BitVec 7} : percentLegal p = true ↔ 1 ≤ p.toNat ∧ p.toNat ≤ 100 := by
  simp only [percentLegal, Bool.and_eq_true, decide_eq_true_eq]

/-- The tick period never rises with the rate (R127). -/
theorem periodWith_antitone (p100 : Nat) {p q : BitVec 7} (hp : 1 ≤ p.toNat) (hpq : p.toNat ≤ q.toNat) :
    periodWith p100 q ≤ periodWith p100 p :=
  Nat.div_le_div_left hpq hp

/-- Slower ticks keep the contract that faster ticks keep. -/
theorem hPeriod_of_slower {p100 tXfer tBook : Nat} {p q : BitVec 7} (hp : 1 ≤ p.toNat) (hpq : p.toNat ≤ q.toNat)
    (h : hPeriod p100 tXfer tBook q) : hPeriod p100 tXfer tBook p :=
  h.trans_le (periodWith_antitone p100 hp hpq)

/-- Settles O11: the rate 100 is the largest legal one, and so has the shortest period. -/
theorem timingContractHardestAtFullRate : Obligations.TimingContractHardestAtFullRate := by
  intro p100 tXfer tBook p hlegal hfull
  obtain ⟨hpos, hle⟩ := percentLegal_iff.1 hlegal
  exact hPeriod_of_slower (q := 100#7) hpos hle hfull

end Sys2Proof.Machine
end

section
/-! The step runs what its turn's input decodes to (R8, R9, R68, R73). -/

namespace Sys2Proof.Machine

theorem exec_tick (s : State) : exec .tick s = execTick s := rfl

theorem exec_construct (count : Nat) (s : State) : exec (.construct count) s = execConstruct count s := rfl

/-- The strobe is an event only when it is high, and the event is TICK (R73). -/
theorem decode_strobe_ok {idxw : Nat} {level : BitVec 1} {i : Instr} (h : decode idxw (.strobe level) = .ok i) :
    level = 1#1 ∧ i = .tick := by
  simp only [decode] at h
  split at h
  · cases h; exact ⟨‹_›, rfl⟩
  · cases h

/-- The reset line is an event only when it is high, and the event is CONSTRUCT with the COUNT beside it (R73). -/
theorem decode_resetLine_ok {idxw : Nat} {level : BitVec 1} {count : Nat} {i : Instr}
    (h : decode idxw (.resetLine level count) = .ok i) : level = 1#1 ∧ i = .construct count := by
  simp only [decode] at h
  split at h
  · cases h; exact ⟨‹_›, rfl⟩
  · cases h

theorem step_issue_decoded {s : State} {turns : List Turn} {w : Nat} {cmds : List Nat} {i : Instr}
    (ht : s.turns = .foreground :: turns) (hf : s.fg = .ready) (hc : s.cmds = w :: cmds)
    (hd : decode s.idxw (.command w) = .ok i) : step s = exec i { s with turns := turns, cmds := cmds } := by
  rw [step_issue ht hf hc, hd]

theorem step_strobe_decoded {s : State} {turns : List Turn} {level : BitVec 1} {i : Instr}
    (ht : s.turns = .strobe level :: turns) (hd : decode s.idxw (.strobe level) = .ok i) :
    step s = exec i { s with turns := turns } := by
  obtain ⟨rfl, rfl⟩ := decode_strobe_ok hd
  rw [step_strobe_high ht, exec_tick]

theorem step_resetLine_decoded {s : State} {turns : List Turn} {level : BitVec 1} {count : Nat} {i : Instr}
    (ht : s.turns = .resetLine level count :: turns) (hd : decode s.idxw (.resetLine level count) = .ok i) :
    step s = exec i { s with turns := turns } := by
  obtain ⟨rfl, rfl⟩ := decode_resetLine_ok hd
  rw [step_resetLine_high ht, exec_construct]

/-- Settles O45, by the kind of the turn taken. -/
theorem stepRunsTheDecodedInstruction : Obligations.StepRunsTheDecodedInstruction := by
  intro s turns
  refine ⟨?command, ?strobe, ?resetLine, ?strobeLow, ?resetLineLow⟩
  case command => exact fun _ _ _ ht hf hc hd => step_issue_decoded ht hf hc hd
  case strobe => exact fun _ _ ht hd => step_strobe_decoded ht hd
  case resetLine => exact fun _ _ _ ht hd => step_resetLine_decoded ht hd
  case strobeLow => exact step_strobe_low
  case resetLineLow => exact fun _ ht => step_resetLine_low ht

end Sys2Proof.Machine
end

section
/-! The cases of a step, by name, and what each of them leaves unchanged (R9, R36): the layer the invariants and the
frames of 10_state.md stand on. -/

namespace Sys2Proof.Machine

/-! ## A command that is issued -/

theorem issued_of_exec {i : Instr} {s t : State} (hi : isCommand i = true) (hf : s.fg = .ready)
    (h : exec i s = .next t) : Issued s i t := by
  rcases exec_command_next hi h with ⟨hne, _⟩ | ⟨_, h⟩
  · exact absurd hf hne
  · exact h

/-- What `Issued` says a command does is what its arm of `exec` answers at a ready port. -/
theorem exec_of_issued {i : Instr} {s t : State} (hf : s.fg = .ready) (h : Issued s i t) : exec i s = .next t := by
  have issue {k : Host.Outcome State Fault Refusal} : whenReady s k = k := whenReady_ready hf
  cases h with
  | begin h => exact issue.trans (by simp only [h]; rfl)
  | setrate p h => exact issue.trans (by simp only [h]; rfl)
  | pixcount => exact issue
  | refresh => exact issue
  | rgbOut index r g b h => exact issue.trans (setPixCommon_out _ h)
  | rgbIn index r g b h => exact issue.trans (setPixCommon_in _ h)
  | packedOut index v h => exact issue.trans (setPixCommon_out _ h)
  | packedIn index v h => exact issue.trans (setPixCommon_in _ h)

section
variable {s t : State} {i : Instr}

theorem Issued.count_eq (h : Issued s i t) : t.count = s.count := by cases h <;> rfl
theorem Issued.buf_eq (h : Issued s i t) : t.buf = s.buf := by cases h <;> rfl
theorem Issued.streaming_eq (h : Issued s i t) : t.streaming = s.streaming := by cases h <;> rfl
theorem Issued.position_eq (h : Issued s i t) : t.position = s.position := by cases h <;> rfl
theorem Issued.bus_eq (h : Issued s i t) : t.bus = s.bus := by cases h <;> rfl
theorem Issued.idxw_eq (h : Issued s i t) : t.idxw = s.idxw := by cases h <;> rfl
theorem Issued.turns_eq (h : Issued s i t) : t.turns = s.turns := by cases h <;> rfl
theorem Issued.cmds_eq (h : Issued s i t) : t.cmds = s.cmds := by cases h <;> rfl
theorem Issued.freeCtr_eq (h : Issued s i t) : t.freeCtr = s.freeCtr := by cases h <;> rfl

theorem Issued.started_eq (h : Issued s i t) (hi : i ≠ .begin) : t.started = s.started := by
  cases h with
  | begin => exact absurd rfl hi
  | _ => rfl

theorem Issued.rate_eq (h : Issued s i t) (hi : ∀ p, i ≠ .setrate p) : t.rate = s.rate := by
  cases h with
  | setrate p => exact absurd rfl (hi p)
  | _ => rfl

theorem Issued.plat_eq (h : Issued s i t) (hb : i ≠ .begin) (hr : ∀ p, i ≠ .setrate p) : t.plat = s.plat := by
  cases h with
  | begin => exact absurd rfl hb
  | setrate p => exact absurd rfl (hr p)
  | _ => rfl

theorem Issued.refreshRequested_eq (h : Issued s i t) (hi : i ≠ .refresh) :
    t.refreshRequested = s.refreshRequested := by
  cases h with
  | refresh => exact absurd rfl hi
  | _ => rfl

theorem Issued.fg_eq (h : Issued s i t) (hrgb : ∀ n r g b, i ≠ .setpixRgb n r g b)
    (hpacked : ∀ n v, i ≠ .setpixPacked n v) : t.fg = s.fg := by
  cases h with
  | rgbIn n r g b => exact absurd rfl (hrgb n r g b)
  | packedIn n v => exact absurd rfl (hpacked n v)
  | _ => rfl

/-- No command clears `started` (R27). -/
theorem Issued.keeps_started (h : Issued s i t) (hs : s.started = true) : t.started = true := by
  cases h with
  | begin => rfl
  | _ => exact hs

/-- No command clears the request (R25). -/
theorem Issued.keeps_request (h : Issued s i t) (hs : s.refreshRequested = true) : t.refreshRequested = true := by
  cases h with
  | refresh => rfl
  | _ => exact hs

end

/-! ## A tick -/

/-- All that a tick can write: bytes on the bus, the two flags and the cursor (R91). -/
def tickUpdate (bytes : List Byte) (streaming refreshRequested : Bool) (position : Nat) (s : State) : State :=
  { s with
    bus := s.bus ++ bytes
    streaming := streaming
    refreshRequested := refreshRequested
    position := position }

/-- Two states agree on all that a tick reads (R91). -/
structure AgreeForTick (s s' : State) : Prop where
  started : s'.started = s.started
  streaming : s'.streaming = s.streaming
  refreshRequested : s'.refreshRequested = s.refreshRequested
  position : s'.position = s.position
  count : s'.count = s.count
  buf : s'.buf = s.buf

/-- A tick makes the same update in every state that agrees on what it reads. -/
theorem execTick_agree {s s' t : State} (ha : AgreeForTick s s') (h : execTick s = .next t) :
    ∃ bytes streaming refreshRequested position,
      t = tickUpdate bytes streaming refreshRequested position s ∧
      execTick s' = .next (tickUpdate bytes streaming refreshRequested position s') := by
  obtain ⟨hst, hs, hr, hp, hc, hb⟩ := ha
  rcases execTick_next h with ⟨h1, rfl⟩ | ⟨h1, h2, h3, rfl⟩ | ⟨h1, h2, h3, rfl⟩ | ⟨h1, h2, h3, rfl⟩
  · refine ⟨[], t.streaming, t.refreshRequested, t.position, by simp [tickUpdate], ?_⟩
    rw [execTick_stopped (hst.trans h1)]
    simp [tickUpdate, ← hs, ← hr, ← hp]
  · refine ⟨[filler], s.streaming, s.refreshRequested, s.position, rfl, ?_⟩
    rw [execTick_idle (hst.trans h1) (hs.trans h2) (hr.trans h3)]
    simp [tickUpdate, ← hs, ← hr, ← hp]
  · exact ⟨[filler], true, false, 0, rfl, execTick_start (hst.trans h1) (hs.trans h2) (hr.trans h3)⟩
  · refine ⟨busBytes (Memory.read s.buf s.position), !decide (s.position + 1 = s.count), s.refreshRequested,
      s.position + 1, rfl, ?_⟩
    rw [execTick_pass (hst.trans h1) (hs.trans h2) (by rwa [hp, hc])]
    simp [tickUpdate, hb, hp, hc, hr]

theorem execTick_eq_tickUpdate {s t : State} (h : execTick s = .next t) :
    ∃ bytes streaming refreshRequested position, t = tickUpdate bytes streaming refreshRequested position s := by
  obtain ⟨bytes, streaming, refreshRequested, position, ht, _⟩ := execTick_agree ⟨rfl, rfl, rfl, rfl, rfl, rfl⟩ h
  exact ⟨bytes, streaming, refreshRequested, position, ht⟩

/-- A tick that is not delivered sends nothing. -/
theorem started_of_execTick_bus {s t : State} (h : execTick s = .next t) (hb : t.bus ≠ s.bus) : s.started = true := by
  by_contra hst
  rw [execTick_stopped (Bool.eq_false_of_not_eq_true hst)] at h
  cases h
  exact hb rfl

/-! ## A SETPIX in progress -/

theorem resumeForeground_ready {s : State} (hf : s.fg = .ready) : resumeForeground s = .next s := by
  simp only [resumeForeground, hf]

/-- GATE and WRITE change `fg`, and WRITE the store and the completions; the rest stays (R104, R106). -/
theorem resumeForeground_eq_update {s t : State} (h : resumeForeground s = .next t) :
    t = { s with buf := t.buf, fg := t.fg, resp := t.resp } := by
  rcases resumeForeground_next h with ⟨_, rfl⟩ | ⟨_, _, _, _, rfl⟩ | ⟨_, _, _, _, rfl⟩ | ⟨_, _, _, _, rfl⟩ <;> rfl

/-- Only WRITE changes the store (R36). -/
theorem resumeForeground_buf {s t : State} (h : resumeForeground s = .next t) (hb : t.buf ≠ s.buf) :
    ∃ i w, s.fg = .granted i w ∧ t.buf = Memory.write s.buf i w := by
  rcases resumeForeground_next h with ⟨_, rfl⟩ | ⟨_, _, _, _, rfl⟩ | ⟨_, _, _, _, rfl⟩ | ⟨i, w, hf, _, rfl⟩
  · exact absurd rfl hb
  · exact absurd rfl hb
  · exact absurd rfl hb
  · exact ⟨i, w, hf, rfl⟩

/-! ## One step -/

/-- `Stepped s t`: one of the five things a step from `s` to `t` can be. -/
inductive Stepped (s : State) : State → Prop where
  | issue {t : State} (turns : List Turn) (w : Nat) (cmds : List Nat) (i : Instr) (ht : s.turns = .foreground :: turns)
      (hf : s.fg = .ready) (hc : s.cmds = w :: cmds) (hd : decode s.idxw (.command w) = .ok i)
      (h : Issued { s with turns := turns, cmds := cmds } i t) : Stepped s t
  | resume {t : State} (turns : List Turn) (ht : s.turns = .foreground :: turns) (hc : s.fg = .ready → s.cmds = [])
      (h : resumeForeground { s with turns := turns } = .next t) : Stepped s t
  | tick {t : State} (turns : List Turn) (ht : s.turns = .strobe 1#1 :: turns)
      (h : execTick { s with turns := turns } = .next t) : Stepped s t
  | reset (turns : List Turn) (count : Nat) (ht : s.turns = .resetLine 1#1 count :: turns)
      (hc : countLegal s.idxw count = true) : Stepped s (constructed { s with turns := turns } count)
  | lowLine (turns : List Turn)
      (ht : s.turns = .strobe 0#1 :: turns ∨ ∃ count, s.turns = .resetLine 0#1 count :: turns) :
      Stepped s { s with turns := turns }

theorem stepped_of_step {s t : State} (h : step s = .next t) : Stepped s t := by
  rcases step_next h with ⟨turns, w, cmds, i, ht, hf, hc, hd, hi, h⟩ | ⟨turns, ht, hc, h⟩ | ⟨turns, ht, h⟩ |
    ⟨turns, count, ht, h⟩ | ⟨turns, ht, rfl⟩
  · exact .issue turns w cmds i ht hf hc hd (issued_of_exec hi hf h)
  · exact .resume turns ht hc h
  · exact .tick turns ht h
  · obtain ⟨hc, rfl⟩ := execConstruct_next h
    exact .reset turns count ht hc
  · exact .lowLine turns ht

theorem step_lowLine {s : State} {turns : List Turn}
    (ht : s.turns = .strobe 0#1 :: turns ∨ ∃ count, s.turns = .resetLine 0#1 count :: turns) :
    step s = .next { s with turns := turns } := by
  rcases ht with ht | ⟨count, ht⟩
  · exact step_strobe_low ht
  · exact step_resetLine_low ht

theorem turns_ne_resetLine {s : State} {level : BitVec 1} {count : Nat} {turns : List Turn} (hn : noReset s) :
    s.turns ≠ .resetLine level count :: turns := by
  intro ht
  have hnone : Turn.isReset (.resetLine level count) = false := hn _ (by simp [ht])
  cases hnone

end Sys2Proof.Machine
end

section
/-! The invariant of R33 and R34: it holds after reset, and every step keeps it. -/

namespace Sys2Proof.Machine

theorem countLegal_iff {idxw count : Nat} : countLegal idxw count = true ↔ 1 ≤ count ∧ count < 2 ^ idxw := by
  simp only [countLegal, Bool.and_eq_true, decide_eq_true_eq]

/-- Whatever legal value it is, the rate after reset is a legal one (R26, log 4). -/
theorem rateReset_legal : percentLegal Config.rateReset = true := by
  rw [percentLegal_iff, Config.rateReset, BitVec.toNat_ofNat]
  omega

/-- The invariant does not speak of the outside: the turns and the commands still to come. -/
theorem Inv.outside {s : State} (h : Inv s) (turns : List Turn) (cmds : List Nat) :
    Inv { s with turns := turns, cmds := cmds } := { h with }

theorem fgOk_waitGate {count i : Nat} {w : Word} (hi : i < count) (hw : marked w = true) :
    Fg.ok count (.waitGate i w) = true := by
  simp [Fg.ok, hi, hw]

theorem fgOk_granted_iff {count i : Nat} {w : Word} :
    Fg.ok count (.granted i w) = true ↔ i < count ∧ marked w = true := by
  simp [Fg.ok]

theorem Issued.keeps_inv {s t : State} {i : Instr} (h : Issued s i t) (hs : Inv s) : Inv t := by
  cases h with
  | begin => exact { hs with pass_started := fun _ => rfl }
  | setrate p hp => exact { hs with rate_legal := hp }
  | pixcount => exact { hs with }
  | refresh => exact { hs with }
  | rgbOut => exact { hs with }
  | rgbIn index r g b hi => exact { hs with port_ok := fgOk_waitGate hi (packRgb_marked r g b) }
  | packedOut => exact { hs with }
  | packedIn index v hi => exact { hs with port_ok := fgOk_waitGate hi (packRaw_marked v) }

/-- WRITE of a marked word at an index of the store keeps R33. -/
theorem Inv.write {s : State} {i : Nat} {w : Word} (h : Inv s) (hi : i < s.count) (hw : marked w = true) :
    Inv { s with buf := Memory.write s.buf i w, fg := .ready, resp := s.resp ++ [.done] } :=
  { h with
    store_wf := Memory.write_wf h.store_wf
    store_in_range := fun c hc => by
      rcases Memory.mem_write hc with hc | rfl
      · exact h.store_in_range c hc
      · exact hi
    store_marked := fun c hc => by
      rcases Memory.mem_write hc with hc | rfl
      · exact h.store_marked c hc
      · exact hw
    port_ok := rfl }

theorem resumeForeground_keeps_inv {s t : State} (hs : Inv s) (h : resumeForeground s = .next t) : Inv t := by
  rcases resumeForeground_next h with ⟨_, rfl⟩ | ⟨_, _, _, _, rfl⟩ | ⟨i, w, hf, _, rfl⟩ | ⟨i, w, hf, hi, rfl⟩
  · exact hs
  · exact hs
  · have hok := hs.port_ok
    rw [hf] at hok
    exact { hs with port_ok := hok }
  · have hok := hs.port_ok
    rw [hf] at hok
    exact hs.write hi (fgOk_granted_iff.1 hok).2

/-- In a pass the cursor goes up to COUNT at most, and COUNT has `IDXW` bits; there the pass ends (R84). -/
theorem execTick_keeps_inv {s t : State} (hs : Inv s) (h : execTick s = .next t) : Inv t := by
  obtain ⟨hpos, hwidth⟩ := countLegal_iff.1 hs.count_legal
  rcases execTick_next h with ⟨_, rfl⟩ | ⟨_, _, _, rfl⟩ | ⟨hst, _, _, rfl⟩ | ⟨hst, _, hp, rfl⟩
  · exact hs
  · exact { hs with }
  · exact { hs with
      pass_started := fun _ => hst
      cursor_in_range := fun _ => hpos
      cursor_width := Nat.two_pow_pos _ }
  · exact { hs with
      pass_started := fun _ => hst
      cursor_in_range := fun hgoesOn => by
        have hne : s.position + 1 ≠ s.count := by simpa using hgoesOn
        show s.position + 1 < s.count
        omega
      cursor_width := by
        show s.position + 1 < 2 ^ s.idxw
        omega }

theorem constructed_inv {s : State} {c : Nat} (hc : countLegal s.idxw c = true) : Inv (constructed s c) where
  count_legal := hc
  store_wf := rfl
  store_in_range := nofun
  store_marked := nofun
  pass_started := nofun
  cursor_in_range := nofun
  cursor_width := Nat.mod_lt _ (Nat.two_pow_pos _)
  port_ok := rfl
  rate_legal := rateReset_legal

theorem Stepped.keeps_inv {s t : State} (h : Stepped s t) (hs : Inv s) : Inv t := by
  cases h with
  | issue turns w cmds i ht hf hc hd h => exact h.keeps_inv (hs.outside turns cmds)
  | resume turns ht hc h => exact resumeForeground_keeps_inv (hs.outside turns s.cmds) h
  | tick turns ht h => exact execTick_keeps_inv (hs.outside turns s.cmds) h
  | reset turns count ht hc => exact constructed_inv hc
  | lowLine turns ht => exact hs.outside turns s.cmds

/-- Settles O47, by the kind of step taken. -/
theorem stepKeepsTheInvariant : Obligations.StepKeepsTheInvariant :=
  fun _ _ hs h => (stepped_of_step h).keeps_inv hs

theorem reset_inv : Inv State.reset where
  count_legal := by decide
  store_wf := rfl
  store_in_range := nofun
  store_marked := nofun
  pass_started := nofun
  cursor_in_range := nofun
  cursor_width := by decide
  port_ok := rfl
  rate_legal := rateReset_legal

/-- Settles O48: nothing is stored, held or sent after reset, and the open rate is a legal one. -/
theorem resetMeetsTheInvariant : Obligations.ResetMeetsTheInvariant :=
  ⟨reset_inv, .empty⟩

theorem Inv.read_marked {s : State} (h : Inv s) (i : Nat) : marked (Memory.read s.buf i) = true := by
  rcases Memory.read_mem_or_black s.buf i with hmem | hblack
  · exact h.store_marked (i, Memory.read s.buf i) hmem
  · rw [hblack]; exact black_marked

/-- Settles O49: a word read is a stored one, marked by the invariant, or black, which is marked. -/
theorem everyPixelWordIsMarked : Obligations.EveryPixelWordIsMarked :=
  fun _ i hs hi => ⟨_, memRead_of_lt hi, hs.read_marked i⟩

end Sys2Proof.Machine
end

section
/-! `rate` is read by no step but to program the tick period (R26). -/

namespace Sys2Proof.Machine

/-- The state with another rate and another platform trace. -/
def withRate (rate : BitVec 7) (plat : List PlatEvent) (s : State) : State := { s with rate := rate, plat := plat }

section
variable (rate : BitVec 7) (plat : List PlatEvent)

theorem Issued.exists_withRate {s t : State} {i : Instr} (h : Issued s i t) :
    ∃ rate' plat', Issued (withRate rate plat s) i (withRate rate' plat' t) := by
  cases h with
  | begin h => exact ⟨_, _, .begin h⟩
  | setrate p h => exact ⟨_, _, .setrate p h⟩
  | pixcount => exact ⟨_, _, .pixcount⟩
  | refresh => exact ⟨_, _, .refresh⟩
  | rgbOut index r g b h => exact ⟨_, _, .rgbOut index r g b h⟩
  | rgbIn index r g b h => exact ⟨_, _, .rgbIn index r g b h⟩
  | packedOut index v h => exact ⟨_, _, .packedOut index v h⟩
  | packedIn index v h => exact ⟨_, _, .packedIn index v h⟩

theorem execTick_withRate {s t : State} (h : execTick s = .next t) :
    execTick (withRate rate plat s) = .next (withRate rate plat t) := by
  obtain ⟨bytes, streaming, refreshRequested, position, rfl, h'⟩ :=
    execTick_agree (s := s) (s' := withRate rate plat s) ⟨rfl, rfl, rfl, rfl, rfl, rfl⟩ h
  exact h'

theorem resumeForeground_withRate {s t : State} (h : resumeForeground s = .next t) :
    resumeForeground (withRate rate plat s) = .next (withRate rate plat t) := by
  rcases resumeForeground_next h with ⟨hf, rfl⟩ | ⟨i, w, hf, hs, rfl⟩ | ⟨i, w, hf, hs, rfl⟩ | ⟨i, w, hf, hi, rfl⟩
  · exact resumeForeground_ready hf
  · exact resumeForeground_held hf hs
  · exact resumeForeground_gate hf hs
  · exact resumeForeground_write hf hi

/-- One step from states that differ in the rate and the platform trace alone. -/
theorem Stepped.step_withRate {s t : State} (h : Stepped s t) :
    ∃ rate' plat', step (withRate rate plat s) = .next (withRate rate' plat' t) := by
  cases h with
  | issue turns w cmds i ht hf hc hd h =>
    obtain ⟨rate', plat', h'⟩ := h.exists_withRate rate plat
    exact ⟨rate', plat', (step_issue_decoded (s := withRate rate plat s) ht hf hc hd).trans (exec_of_issued hf h')⟩
  | resume turns ht hc h =>
    exact ⟨rate, plat, (step_resume (s := withRate rate plat s) ht hc).trans (resumeForeground_withRate rate plat h)⟩
  | tick turns ht h =>
    exact ⟨rate, plat, (step_strobe_high (s := withRate rate plat s) ht).trans (execTick_withRate rate plat h)⟩
  | reset turns count ht hc =>
    exact ⟨Config.rateReset, [],
      (step_resetLine_high (s := withRate rate plat s) ht).trans (execConstruct_legal hc)⟩
  | lowLine turns ht => exact ⟨rate, plat, step_lowLine (s := withRate rate plat s) ht⟩

end

theorem steps_withRate {n : Nat} : ∀ {s t : State} (rate : BitVec 7) (plat : List PlatEvent), steps n s = .next t →
    ∃ rate' plat', steps n (withRate rate plat s) = .next (withRate rate' plat' t) := by
  induction n with
  | zero =>
    intro s t rate plat h
    cases h
    exact ⟨rate, plat, rfl⟩
  | succ n ih =>
    intro s t rate plat h
    obtain ⟨u, hstep, hrest⟩ := steps_succ_next h
    obtain ⟨rate₁, plat₁, hstep'⟩ := (stepped_of_step hstep).step_withRate rate plat
    rw [steps_succ_of_step hstep']
    exact ih rate₁ plat₁ hrest

/-- Settles O58, by induction on the number of steps. -/
theorem rateHasNoFunctionalEffect : Obligations.RateHasNoFunctionalEffect :=
  fun _ _ _ rate plat h => steps_withRate rate plat h

end Sys2Proof.Machine
end

section
/-! Frames of the commands, of TICK and of CONSTRUCT (R36, R91, R120). -/

namespace Sys2Proof.Machine

/-- Settles O30: a command that waits changes nothing, and one that is issued changes what `Issued` names. -/
theorem commandFrame : Obligations.CommandFrame := by
  intro i s t hi h
  rcases exec_command_next hi h with ⟨_, rfl⟩ | ⟨_, h⟩
  · simp
  · exact ⟨memRead_congr h.buf_eq h.count_eq, h.buf_eq, h.count_eq, h.streaming_eq, h.position_eq, h.bus_eq,
      h.idxw_eq, h.turns_eq, h.cmds_eq, h.freeCtr_eq, h.started_eq, h.rate_eq, fun ⟨hb, hr⟩ => h.plat_eq hb hr,
      h.refreshRequested_eq, fun ⟨hrgb, hpacked⟩ => h.fg_eq hrgb hpacked⟩

/-- In a good state a tick finds a word wherever it looks for one (R85). -/
theorem Inv.execTick_answers {s : State} (h : Inv s) : ∃ t : State, execTick s = .next t := by
  rcases execTick_cases s with ⟨_, e⟩ | ⟨_, _, _, e⟩ | ⟨_, _, _, e⟩ | ⟨_, _, _, e⟩ | ⟨_, hs, hp, _⟩
  · exact ⟨_, e⟩
  · exact ⟨_, e⟩
  · exact ⟨_, e⟩
  · exact ⟨_, e⟩
  · exact absurd (h.cursor_in_range hs) (Nat.not_lt.2 hp)

/-- Settles O35: the refusal by the case of TICK, its absence by the cursor of R34. -/
theorem tickWithoutWordIsRefusedAndUnreachable : Obligations.TickWithoutWordIsRefusedAndUnreachable :=
  ⟨fun _ hst hs hp => execTick_noWord hst hs hp, fun _ hs => hs.execTick_answers⟩

/-- Settles O36: a strobe that is not delivered is no step. -/
theorem tickBeforeBeginIsNoStep : Obligations.TickBeforeBeginIsNoStep :=
  fun _ hst => execTick_stopped hst

/-- Settles O38: the two states take the same `tickUpdate`. -/
theorem tickReadsOnlySharedState : Obligations.TickReadsOnlySharedState := by
  intro s s' t hst hs hr hp hc hb h
  obtain ⟨bytes, streaming, refreshRequested, position, rfl, h'⟩ := execTick_agree ⟨hst, hs, hr, hp, hc, hb⟩ h
  exact ⟨_, bytes, h', rfl, rfl, rfl, rfl, rfl⟩

/-- Settles O27: every index of the empty list reads black. -/
theorem constructResetsEverything : Obligations.ConstructResetsEverything := by
  intro s c hpos hmax
  have hc : countLegal s.idxw c = true := countLegal_iff.2 ⟨hpos, by have := Nat.two_pow_pos s.idxw; omega⟩
  exact ⟨constructed s c, execConstruct_legal hc, rfl, fun i hi => memRead_of_lt (s := constructed s c) hi,
    rfl, rfl, rfl, rfl, rfl, rfl, rfl⟩

end Sys2Proof.Machine
end

section
/-! Who writes what, step by step, while no reset comes (R21, R25, R27, R36, R51). -/

namespace Sys2Proof.Machine

/-- Settles O53, by the kind of step taken. -/
theorem countIsFixedAndTicksNeverStop : Obligations.CountIsFixedAndTicksNeverStop := by
  intro s t hn h
  cases stepped_of_step h with
  | issue turns w cmds i ht hf hc hd h => exact ⟨h.count_eq, h.idxw_eq, h.keeps_started⟩
  | resume turns ht hc h =>
    rw [resumeForeground_eq_update h]
    exact ⟨rfl, rfl, id⟩
  | tick turns ht h =>
    obtain ⟨bytes, streaming, refreshRequested, position, rfl⟩ := execTick_eq_tickUpdate h
    exact ⟨rfl, rfl, id⟩
  | reset turns count ht hc => exact absurd ht (turns_ne_resetLine hn)
  | lowLine turns ht => exact ⟨rfl, rfl, id⟩

/-- Of the steps that are no reset only a foreground turn that issues REFRESH sets the request. -/
theorem Stepped.request_set {s t : State} (h : Stepped s t) (hs : s.refreshRequested = false)
    (ht : t.refreshRequested = true) :
    ∃ turns w cmds, s.turns = .foreground :: turns ∧ s.fg = .ready ∧ s.cmds = w :: cmds ∧
      decode s.idxw (.command w) = .ok .refresh := by
  cases h with
  | issue turns w cmds i hturns hf hc hd h =>
    by_cases hi : i = .refresh
    · exact ⟨turns, w, cmds, hturns, hf, hc, hi ▸ hd⟩
    · cases hs.symm.trans ((h.refreshRequested_eq hi).symm.trans ht)
  | resume turns hturns hc h =>
    rw [resumeForeground_eq_update h] at ht
    cases hs.symm.trans ht
  | tick turns hturns h =>
    rcases execTick_next h with ⟨_, rfl⟩ | ⟨_, _, _, rfl⟩ | ⟨_, _, _, rfl⟩ | ⟨_, _, _, rfl⟩
    · cases hs.symm.trans ht
    · cases hs.symm.trans ht
    · cases ht
    · cases hs.symm.trans ht
  | reset turns count hturns hc => cases ht
  | lowLine turns hturns => cases hs.symm.trans ht

/-- Without a reset only a START tick clears the request. -/
theorem Stepped.request_cleared {s t : State} (h : Stepped s t) (hn : noReset s) (hs : s.refreshRequested = true)
    (ht : t.refreshRequested = false) :
    (∃ turns, s.turns = .strobe 1#1 :: turns) ∧ s.started = true ∧ s.streaming = false ∧ t.streaming = true := by
  cases h with
  | issue turns w cmds i hturns hf hc hd h => cases (h.keeps_request hs).symm.trans ht
  | resume turns hturns hc h =>
    rw [resumeForeground_eq_update h] at ht
    cases hs.symm.trans ht
  | tick turns hturns h =>
    rcases execTick_next h with ⟨_, rfl⟩ | ⟨_, _, hr, _⟩ | ⟨hst, hidle, _, rfl⟩ | ⟨_, _, _, rfl⟩
    · cases hs.symm.trans ht
    · cases hs.symm.trans hr
    · exact ⟨⟨turns, hturns⟩, hst, hidle, rfl⟩
    · cases hs.symm.trans ht
  | reset turns count hturns hc => exact absurd hturns (turns_ne_resetLine hn)
  | lowLine turns hturns => cases hs.symm.trans ht

/-- Settles O54: one lemma for each direction of the mailbox. -/
theorem requestFlagIsAMailbox : Obligations.RequestFlagIsAMailbox :=
  fun _ _ hn h => ⟨(stepped_of_step h).request_set, (stepped_of_step h).request_cleared hn⟩

/-- Without a reset only WRITE changes the store. -/
theorem Stepped.buf_changed {s t : State} (h : Stepped s t) (hn : noReset s) (hb : t.buf ≠ s.buf) :
    ∃ turns i w, s.turns = .foreground :: turns ∧ s.fg = .granted i w ∧ t.buf = Memory.write s.buf i w := by
  cases h with
  | issue turns w cmds i ht hf hc hd h => exact absurd h.buf_eq hb
  | resume turns ht hc h =>
    obtain ⟨i, w, hf, hwrite⟩ := resumeForeground_buf h hb
    exact ⟨turns, i, w, ht, hf, hwrite⟩
  | tick turns ht h =>
    obtain ⟨bytes, streaming, refreshRequested, position, rfl⟩ := execTick_eq_tickUpdate h
    exact absurd rfl hb
  | reset turns count ht hc => exact absurd ht (turns_ne_resetLine hn)
  | lowLine turns ht => exact absurd rfl hb

/-- Without a reset only a delivered tick changes the bus. -/
theorem Stepped.bus_changed {s t : State} (h : Stepped s t) (hn : noReset s) (hb : t.bus ≠ s.bus) :
    s.started = true ∧ ∃ turns, s.turns = .strobe 1#1 :: turns := by
  cases h with
  | issue turns w cmds i ht hf hc hd h => exact absurd h.bus_eq hb
  | resume turns ht hc h => exact absurd (congrArg State.bus (resumeForeground_eq_update h)) hb
  | tick turns ht h => exact ⟨started_of_execTick_bus (s := { s with turns := turns }) h hb, turns, ht⟩
  | reset turns count ht hc => exact absurd ht (turns_ne_resetLine hn)
  | lowLine turns ht => exact absurd rfl hb

/-- Settles O55: one lemma for the store and one for the bus. -/
theorem storeAndBusHaveOneWriter : Obligations.StoreAndBusHaveOneWriter :=
  fun _ _ hn h => ⟨(stepped_of_step h).buf_changed hn, (stepped_of_step h).bus_changed hn⟩

end Sys2Proof.Machine
end

section
/-! The Pixel Store as a memory: what a read gives after a write, and a write of the word already there (R40, R46). -/

namespace Sys2Proof.Machine

/-- Writing the word that already stands at an index changes nothing. -/
theorem Memory.write_read_self {m : Memory} {i : Nat} : ∀ {lo : Nat}, Memory.wfFrom lo m = true →
    Memory.write m i (Memory.read m i) = m := by
  induction m with
  | nil => intros; rfl
  | cons c m ih =>
    obtain ⟨a, w⟩ := c
    intro lo hm
    obtain ⟨_, hw, htail⟩ := Memory.wfFrom_cons.1 hm
    rcases lt_trichotomy a i with hlt | rfl | hgt
    · simp [Memory.write, Memory.read_cons, hlt, hlt.ne, ih htail]
    · simp [Memory.write, Memory.read_cons, Memory.cons, hw]
    · have hblack : Memory.read m i = black := Memory.read_below htail (by omega)
      simp [Memory.write, Memory.read_cons, Memory.cons, hgt.ne', hgt.not_gt, hblack]

/-- Settles O12: the second write is a write of the word that already stands there. -/
theorem storeReadAfterWrite : Obligations.StoreReadAfterWrite := by
  intro m i v hm
  have hself : Memory.read (Memory.write m i v) i = v := Memory.read_write_self hm
  have hagain := Memory.write_read_self (i := i) (Memory.write_wf (i := i) (v := v) hm)
  rw [hself] at hagain
  exact ⟨hself, fun _ ha => Memory.read_write_of_ne ha, hagain, Memory.write_wf hm⟩

end Sys2Proof.Machine
end

section
/-! The Pixel Store during a pass (R58). No step of a pass opens the gate, so the only write that can fall into a pass is
the one granted before it. -/

namespace Sys2Proof.Machine

/-! ## Steps of a pass -/

/-- No write is granted. -/
def NoGrant (s : State) : Prop := ∀ i w, s.fg ≠ .granted i w

theorem noGrant_of_ready {s : State} (hf : s.fg = .ready) : NoGrant s := by
  intro i w hg
  cases hf.symm.trans hg

/-- Issuing a command grants no write. -/
theorem Issued.granted_before {s t : State} {c : Instr} {i : Nat} {w : Word} (h : Issued s c t)
    (ht : t.fg = .granted i w) : s.fg = .granted i w := by
  cases h with
  | rgbIn => cases ht
  | packedIn => cases ht
  | _ => exact ht

/-- A write granted after a step of a pass was granted before it: only GATE grants, at an open gate (R104). -/
theorem Stepped.granted_before {s t : State} {i : Nat} {w : Word} (h : Stepped s t) (hs : s.streaming = true)
    (ht : t.fg = .granted i w) : s.fg = .granted i w := by
  cases h with
  | issue turns _ cmds _ _ _ _ _ h => exact h.granted_before ht
  | resume turns _ _ h =>
    rcases resumeForeground_next h with ⟨_, rfl⟩ | ⟨_, _, _, _, rfl⟩ | ⟨_, _, _, hidle, _⟩ | ⟨_, _, _, _, rfl⟩
    · exact ht
    · exact ht
    · cases hs.symm.trans hidle
    · cases ht
  | tick turns _ h =>
    obtain ⟨bytes, streaming, refreshRequested, position, rfl⟩ := execTick_eq_tickUpdate h
    exact ht
  | reset => cases ht
  | lowLine => exact ht

theorem Stepped.keeps_noGrant {s t : State} (h : Stepped s t) (hs : s.streaming = true) (hg : NoGrant s) :
    NoGrant t :=
  fun i w ht => hg i w (h.granted_before hs ht)

/-- With no write granted, a step that is no reset leaves the store alone. -/
theorem Stepped.buf_of_noGrant {s t : State} (h : Stepped s t) (hn : noReset s) (hg : NoGrant s) : t.buf = s.buf := by
  by_contra hb
  obtain ⟨_, i, w, _, hf, _⟩ := h.buf_changed hn hb
  exact hg i w hf

/-- A granted write stays granted with the store untouched, or is performed (R106). -/
theorem Stepped.of_granted {s t : State} {i : Nat} {w : Word} (h : Stepped s t) (hn : noReset s)
    (hf : s.fg = .granted i w) :
    (t.buf = s.buf ∧ t.fg = .granted i w) ∨ (t.buf = Memory.write s.buf i w ∧ t.fg = .ready) := by
  cases h with
  | issue _ _ _ _ _ hready => cases hf.symm.trans hready
  | resume turns _ _ h =>
    rcases resumeForeground_next h with ⟨_, rfl⟩ | ⟨_, _, _, _, rfl⟩ | ⟨_, _, hwait, _, _⟩ | ⟨_, _, hgrant, _, rfl⟩
    · exact .inl ⟨rfl, hf⟩
    · exact .inl ⟨rfl, hf⟩
    · cases hf.symm.trans hwait
    · cases hf.symm.trans hgrant
      exact .inr ⟨rfl, rfl⟩
  | tick turns _ h =>
    obtain ⟨bytes, streaming, refreshRequested, position, rfl⟩ := execTick_eq_tickUpdate h
    exact .inl ⟨rfl, hf⟩
  | reset turns count ht => exact absurd ht (turns_ne_resetLine hn)
  | lowLine => exact .inl ⟨rfl, hf⟩

/-! ## Runs inside a pass -/

/-- A step uses up exactly the turn at the head. -/
theorem Stepped.turns_eq {s t : State} (h : Stepped s t) : ∃ turn, s.turns = turn :: t.turns := by
  cases h with
  | issue turns _ _ _ ht _ _ _ h => exact ⟨_, by rw [h.turns_eq, ht]⟩
  | resume turns ht _ h => exact ⟨_, by rw [resumeForeground_eq_update h, ht]⟩
  | tick turns ht h =>
    obtain ⟨bytes, streaming, refreshRequested, position, rfl⟩ := execTick_eq_tickUpdate h
    exact ⟨_, ht⟩
  | reset turns count ht => exact ⟨_, ht⟩
  | lowLine turns ht =>
    rcases ht with ht | ⟨_, ht⟩ <;> exact ⟨_, ht⟩

theorem Stepped.keeps_noReset {s t : State} (h : Stepped s t) (hn : noReset s) : noReset t := by
  obtain ⟨turn, ht⟩ := h.turns_eq
  intro x hx
  exact hn x (ht ▸ List.mem_cons_of_mem _ hx)

theorem passRunsThrough.streaming {n : Nat} {s : State} (h : passRunsThrough n s) : s.streaming = true :=
  h 0 n.zero_le s (steps_zero s)

theorem passRunsThrough.tail {n : Nat} {s u : State} (h : passRunsThrough (n + 1) s) (hstep : step s = .next u) :
    passRunsThrough n u :=
  fun m hm v hv => h (m + 1) (Nat.succ_le_succ hm) v ((steps_succ_of_step hstep).trans hv)

/-- What every step of a running pass keeps, every run inside the pass keeps. -/
theorem pass_induction {P : State → Prop}
    (hP : ∀ s t : State, step s = .next t → noReset s → s.streaming = true → P s → P t) {n : Nat} :
    ∀ {s t : State}, noReset s → passRunsThrough n s → steps n s = .next t → P s → P t := by
  induction n with
  | zero =>
    intro s t _ _ h hs
    cases h
    exact hs
  | succ n ih =>
    intro s t hn hpass h hs
    obtain ⟨u, hstep, hrest⟩ := steps_succ_next h
    exact ih ((stepped_of_step hstep).keeps_noReset hn) (hpass.tail hstep) hrest (hP s u hstep hn hpass.streaming hs)

/-- Settles O56: with no write granted, no step of the pass changes the store, and none grants a write. -/
theorem passKeepsTheStore : Obligations.PassKeepsTheStore := by
  intro n s t hn _ hg hpass h
  have hkept : NoGrant t ∧ t.buf = s.buf := by
    refine pass_induction (P := fun u => NoGrant u ∧ u.buf = s.buf) ?_ hn hpass h ⟨hg, rfl⟩
    intro u v hstep hnu hsu ⟨hgu, hbu⟩
    have huv := stepped_of_step hstep
    exact ⟨huv.keeps_noGrant hsu hgu, (huv.buf_of_noGrant hnu hgu).trans hbu⟩
  exact hkept.2

/-- How far the write of `w` at `i`, granted in `s`, has come in `t`. -/
inductive WriteProgress (s : State) (i : Nat) (w : Word) (t : State) : Prop where
  | pending (hb : t.buf = s.buf) (hf : t.fg = .granted i w)
  | performed (hb : t.buf = Memory.write s.buf i w) (hg : NoGrant t)

theorem WriteProgress.stepped {s u v : State} {i : Nat} {w : Word} (h : WriteProgress s i w u) (huv : Stepped u v)
    (hn : noReset u) (hs : u.streaming = true) : WriteProgress s i w v := by
  cases h with
  | pending hb hf =>
    rcases huv.of_granted hn hf with ⟨hbv, hfv⟩ | ⟨hbv, hfv⟩
    · exact .pending (hbv.trans hb) hfv
    · exact .performed (hb ▸ hbv) (noGrant_of_ready hfv)
  | performed hb hg => exact .performed ((huv.buf_of_noGrant hn hg).trans hb) (huv.keeps_noGrant hs hg)

/-- Settles O57: throughout the pass the granted write is still pending or has been performed, and no other is granted. -/
theorem atMostOneWordChangesInAPass : Obligations.AtMostOneWordChangesInAPass := by
  intro n s t i w hinv hn _ hf hpass h
  have hkept : t.count = s.count ∧ WriteProgress s i w t := by
    refine pass_induction (P := fun u => u.count = s.count ∧ WriteProgress s i w u) ?_ hn hpass h
      ⟨rfl, .pending rfl hf⟩
    intro u v hstep hnu hsu ⟨hcu, hwu⟩
    have hcv : v.count = u.count := (countIsFixedAndTicksNeverStop u v hnu hstep).1
    exact ⟨hcv.trans hcu, hwu.stepped (stepped_of_step hstep) hnu hsu⟩
  obtain ⟨hcount, hprogress⟩ := hkept
  cases hprogress with
  | pending hb _ =>
    exact ⟨fun a _ => memRead_congr hb hcount a, .inl (memRead_congr hb hcount i)⟩
  | performed hb _ =>
    have hport := hinv.port_ok
    rw [hf, fgOk_granted_iff] at hport
    refine ⟨fun a ha => ?_, .inr ?_⟩
    · simp only [memRead, hb, hcount, Memory.read_write_of_ne ha]
    · rw [memRead_of_lt (hcount ▸ hport.1), hb, Memory.read_write_self hinv.store_wf]

end Sys2Proof.Machine
end

section
/-! The framing of the bus trace (R67): every step keeps it. Only a tick sends, and what it sends is a lone filler, a
preamble, or one more word of the running pass. -/

namespace Sys2Proof.Machine

theorem dataBytes_concat (ws : List Word) (w : Word) : dataBytes (ws ++ [w]) = dataBytes ws ++ busBytes w := by
  simp [dataBytes]

theorem busFramed_idle_iff {s : State} (hs : s.streaming = false) : BusFramed s ↔ WholeUnits s.count s.bus := by
  simp only [BusFramed, hs]

theorem busFramed_pass_iff {s : State} (hs : s.streaming = true) :
    BusFramed s ↔ ∃ bytes ws, WholeUnits s.count bytes ∧ ws.length = s.position ∧ (∀ w ∈ ws, marked w = true) ∧
      s.bus = bytes ++ filler :: dataBytes ws := by
  simp only [BusFramed, hs]

/-- The framing speaks of COUNT, `streaming`, `position` and `bus` alone. -/
theorem BusFramed.congr {s t : State} (h : BusFramed s) (hc : t.count = s.count) (hs : t.streaming = s.streaming)
    (hp : t.position = s.position) (hb : t.bus = s.bus) : BusFramed t := by
  simpa only [BusFramed, hc, hs, hp, hb] using h

/-- A word at the cursor makes the running pass one word longer, or, at COUNT, whole (R83, R84). -/
theorem BusFramed.sendWord {s : State} {w : Word} (h : BusFramed s) (hs : s.streaming = true)
    (hw : marked w = true) :
    BusFramed { s with
      bus := s.bus ++ busBytes w
      position := s.position + 1
      streaming := !decide (s.position + 1 = s.count) } := by
  obtain ⟨bytes, ws, hunits, hlen, hmarked, hbus⟩ := (busFramed_pass_iff hs).1 h
  have hlen' : (ws ++ [w]).length = s.position + 1 := by simp [hlen]
  have hmarked' : ∀ v ∈ ws ++ [w], marked v = true := by
    intro v hv
    rcases List.mem_append.1 hv with hv | hv
    · exact hmarked v hv
    · exact List.mem_singleton.1 hv ▸ hw
  have hbus' : s.bus ++ busBytes w = bytes ++ filler :: dataBytes (ws ++ [w]) := by
    rw [hbus, dataBytes_concat, List.append_assoc, List.cons_append]
  by_cases hlast : s.position + 1 = s.count
  · rw [busFramed_idle_iff (by simp [hlast])]
    exact hbus' ▸ .pass (ws ++ [w]) hunits (hlen'.trans hlast) hmarked'
  · rw [busFramed_pass_iff (by simp [hlast])]
    exact ⟨bytes, ws ++ [w], hunits, hlen', hmarked', hbus'⟩

theorem execTick_keeps_busFramed {s t : State} (hinv : Inv s) (hs : BusFramed s) (h : execTick s = .next t) :
    BusFramed t := by
  rcases execTick_next h with ⟨_, rfl⟩ | ⟨_, hidle, _, rfl⟩ | ⟨_, hidle, _, rfl⟩ | ⟨_, hpass, _, rfl⟩
  · exact hs
  · exact (busFramed_idle_iff (by exact hidle)).2 (.idle ((busFramed_idle_iff hidle).1 hs))
  · exact (busFramed_pass_iff rfl).2 ⟨s.bus, [], (busFramed_idle_iff hidle).1 hs, rfl, nofun, rfl⟩
  · exact hs.sendWord hpass (hinv.read_marked s.position)

/-- Settles O51, by the kind of step taken. -/
theorem stepKeepsTheBusFraming : Obligations.StepKeepsTheBusFraming := by
  intro s t hinv hs h
  cases stepped_of_step h with
  | issue turns w cmds i ht hf hc hd h => exact hs.congr h.count_eq h.streaming_eq h.position_eq h.bus_eq
  | resume turns ht hc h =>
    rw [resumeForeground_eq_update h]
    exact hs.congr rfl rfl rfl rfl
  | tick turns ht h =>
    exact execTick_keeps_busFramed (hinv.outside turns s.cmds) (hs.congr rfl rfl rfl rfl) h
  | reset turns count ht hc => exact .empty
  | lowLine turns ht => exact hs.congr rfl rfl rfl rfl

end Sys2Proof.Machine
end

section
/-! The fields of a packed word (R61 to R64). -/

namespace Sys2Proof.Machine

theorem packRgb_green (r g b : BitVec 8) : (packRgb r g b).extractLsb' 10 5 = g.extractLsb' 0 5 := by
  refine BitVec.eq_of_getLsbD_eq fun k hk => ?_
  have hbit := packRgb_getLsbD r g b (10 + k) (by omega)
  rw [if_neg (by omega), if_pos (by omega)] at hbit
  simp [hbit]

theorem packRgb_blue (r g b : BitVec 8) : (packRgb r g b).extractLsb' 5 5 = b.extractLsb' 0 5 := by
  refine BitVec.eq_of_getLsbD_eq fun k hk => ?_
  have hbit := packRgb_getLsbD r g b (5 + k) (by omega)
  rw [if_neg (by omega), if_neg (by omega), if_pos (by omega)] at hbit
  simp [hbit]

theorem packRgb_red (r g b : BitVec 8) : (packRgb r g b).extractLsb' 0 5 = r.extractLsb' 0 5 := by
  refine BitVec.eq_of_getLsbD_eq fun k hk => ?_
  have hbit := packRgb_getLsbD r g b k (by omega)
  rw [if_neg (by omega), if_neg (by omega), if_neg (by omega)] at hbit
  simp [hbit]

/-- Settles O6: the formula is the definition's, its fields are read off bit by bit. -/
theorem packRgbFieldsAreMaskedChannels : Obligations.PackRgbFieldsAreMaskedChannels :=
  fun r g b => ⟨rfl, packRgb_marked r g b, packRgb_green r g b, packRgb_blue r g b, packRgb_red r g b⟩

/-- A channel masked to its low five bits is those five bits. -/
theorem channel_low_five (c : BitVec 8) : (c &&& 0x1F#8).setWidth 5 = c.extractLsb' 0 5 := by
  refine BitVec.eq_of_getLsbD_eq fun k hk => ?_
  interval_cases k <;> simp

/-- Settles O7, from the three fields of `PackRGB`. -/
theorem unpackOfPackRgbIsMaskedChannels : Obligations.UnpackOfPackRgbIsMaskedChannels := by
  intro r g b
  refine ⟨?_, packRgb_marked r g b⟩
  simp only [unpack, packRgb_red, packRgb_green, packRgb_blue, channel_low_five]

/-- The marker is above the 15 bits that `PackRaw` passes. -/
theorem packRaw_passes (v : BitVec 16) : (packRaw v).extractLsb' 0 15 = v.extractLsb' 0 15 := by
  rw [packRaw, BitVec.extractLsb'_or, show (0x8000#16).extractLsb' 0 15 = 0#15 by decide, BitVec.or_zero]

/-- Settles O8; the three colours named are closed words. -/
theorem packRawForcesTheMarker : Obligations.PackRawForcesTheMarker :=
  ⟨fun v => ⟨rfl, packRaw_marked v, packRaw_passes v⟩, by decide, by decide, by decide⟩

end Sys2Proof.Machine
end

section
/-! The command port in use (R68). -/

namespace Sys2Proof.Machine

/-- Settles O26: every command is issued through `whenReady`. -/
theorem commandWaitsWhilePortInUse : Obligations.CommandWaitsWhilePortInUse := by
  intro i s hi hf
  cases i with
  | tick => cases hi
  | construct => cases hi
  | _ => exact whenReady_waits hf

end Sys2Proof.Machine
end

section
/-! The command word and its fields (R69 to R72): cutting a word into fields and joining them are inverse to each
other, and so are the fields an instruction is written with and what those fields decode to. -/

namespace Sys2Proof

/-! ## Words cut into parts -/

/-- A word is its high part and its low part. -/
theorem eq_append_iff {n k : Nat} {x : BitVec (n + k)} {hi : BitVec n} {lo : BitVec k} :
    x = hi ++ lo ↔ x.extractLsb' k n = hi ∧ x.extractLsb' 0 k = lo := by
  constructor
  · rintro rfl
    exact ⟨BitVec.extractLsb'_append_eq_left, BitVec.extractLsb'_append_eq_right⟩
  · rintro ⟨rfl, rfl⟩
    exact BitVec.extractLsb'_append_extractLsb'.symm

/-- A part of a part is a part of the whole. -/
theorem extract_extract {n start len start' len' : Nat} (x : BitVec n) (h : start' + len' ≤ len) :
    (x.extractLsb' start len).extractLsb' start' len' = x.extractLsb' (start + start') len' := by
  refine BitVec.eq_of_getLsbD_eq fun k hk => ?_
  simp [hk, show start' + k < len by omega, Nat.add_assoc]

/-- The `dat` field of SETRATE (R71). -/
theorem dat_eq_percent_iff {dat : BitVec 24} {percent : BitVec 7} :
    dat = 0#17 ++ percent ↔ dat.extractLsb' 7 17 = 0#17 ∧ dat.extractLsb' 0 7 = percent :=
  eq_append_iff (n := 17) (k := 7)

/-- The `dat` field of SETPIX_RGB (R71). -/
theorem dat_eq_rgb_iff {dat : BitVec 24} {r g b : BitVec 8} :
    dat = r ++ g ++ b ↔ dat.extractLsb' 16 8 = r ∧ dat.extractLsb' 8 8 = g ∧ dat.extractLsb' 0 8 = b := by
  have hhigh : dat.extractLsb' 8 16 = r ++ g ↔ dat.extractLsb' 16 8 = r ∧ dat.extractLsb' 8 8 = g := by
    rw [eq_append_iff (n := 8) (k := 8), extract_extract dat (by decide), extract_extract dat (by decide)]
  rw [eq_append_iff (n := 16) (k := 8), hhigh, and_assoc]

/-- The `dat` field of SETPIX_PACKED (R71). -/
theorem dat_eq_packed_iff {dat : BitVec 24} {v : BitVec 16} :
    dat = 0#8 ++ v ↔ dat.extractLsb' 16 8 = 0#8 ∧ dat.extractLsb' 0 16 = v :=
  eq_append_iff (n := 8) (k := 16)

/-! ## Fields of a command word -/

theorem splitCommand_idx_lt (idxw w : Nat) : (splitCommand idxw w).idx < 2 ^ idxw :=
  Nat.mod_lt _ (Nat.two_pow_pos idxw)

/-- The high part of a number cut at `b`; the low part is `Nat.mul_add_mod_of_lt`. -/
theorem mul_add_div_of_lt {a b c : Nat} (h : c < b) : (a * b + c) / b = a := by
  rw [Nat.mul_comm, Nat.mul_add_div (Nat.zero_lt_of_lt h), Nat.div_eq_of_lt h, Nat.add_zero]

theorem joinCommand_lt {idxw : Nat} {f : CommandFields} (hidx : f.idx < 2 ^ idxw) :
    joinCommand idxw f < 2 ^ (28 + idxw) := by
  have hop : f.op.toNat < 2 ^ 4 := f.op.isLt
  have hdat : f.dat.toNat < 2 ^ 24 := f.dat.isLt
  have hhigh : f.op.toNat * 2 ^ idxw + f.idx < 2 ^ 4 * 2 ^ idxw := by nlinarith
  have hpow : 2 ^ (28 + idxw) = 2 ^ 4 * 2 ^ idxw * 2 ^ 24 := by ring
  rw [joinCommand, hpow]
  omega

theorem splitCommand_joinCommand {idxw : Nat} {f : CommandFields} (hidx : f.idx < 2 ^ idxw) :
    splitCommand idxw (joinCommand idxw f) = f := by
  obtain ⟨op, idx, dat⟩ := f
  have hdat : dat.toNat < 2 ^ 24 := dat.isLt
  have hlow : joinCommand idxw ⟨op, idx, dat⟩ % 2 ^ 24 = dat.toNat := by
    rw [joinCommand, Nat.mul_add_mod_of_lt hdat]
  have hhigh : joinCommand idxw ⟨op, idx, dat⟩ / 2 ^ 24 = op.toNat * 2 ^ idxw + idx := by
    rw [joinCommand, mul_add_div_of_lt hdat]
  have hmid : (op.toNat * 2 ^ idxw + idx) % 2 ^ idxw = idx := Nat.mul_add_mod_of_lt hidx
  have htop : (op.toNat * 2 ^ idxw + idx) / 2 ^ idxw = op.toNat := mul_add_div_of_lt hidx
  have hword : BitVec.ofNat 24 (joinCommand idxw ⟨op, idx, dat⟩) = dat :=
    BitVec.eq_of_toNat_eq (by rw [BitVec.toNat_ofNat, hlow])
  rw [splitCommand, Nat.pow_add, ← Nat.div_div_eq_div_mul, hhigh, hmid, htop, hword, BitVec.ofNat_toNat,
    BitVec.setWidth_eq]

theorem joinCommand_splitCommand {idxw w : Nat} (hw : w < 2 ^ (28 + idxw)) :
    joinCommand idxw (splitCommand idxw w) = w := by
  have hop : w / 2 ^ (24 + idxw) < 2 ^ 4 := by
    rw [Nat.div_lt_iff_lt_mul (Nat.two_pow_pos _), ← Nat.pow_add]
    convert hw using 2
    omega
  have hhigh : w / 2 ^ (24 + idxw) * 2 ^ idxw + w / 2 ^ 24 % 2 ^ idxw = w / 2 ^ 24 := by
    rw [Nat.pow_add, ← Nat.div_div_eq_div_mul, Nat.div_add_mod']
  rw [joinCommand, splitCommand, BitVec.toNat_ofNat, BitVec.toNat_ofNat, Nat.mod_eq_of_lt hop, hhigh,
    Nat.div_add_mod']

/-! ## Fields of an instruction -/

/-- The fields each command is written with (the "Encoding" lines of R70); the two events have none (R73). -/
def commandFields : Instr → Option CommandFields
  | .begin => some ⟨0x1#4, 0, 0#24⟩
  | .setrate percent => some ⟨0x2#4, 0, 0#17 ++ percent⟩
  | .pixcount => some ⟨0x3#4, 0, 0#24⟩
  | .setpixRgb index r g b => some ⟨0x4#4, index, r ++ g ++ b⟩
  | .setpixPacked index v => some ⟨0x5#4, index, 0#8 ++ v⟩
  | .refresh => some ⟨0x6#4, 0, 0#24⟩
  | .tick => none
  | .construct _ => none

theorem encode_of_commandFields {idxw : Nat} {i : Instr} {f : CommandFields} (h : commandFields i = some f) :
    encode idxw i = .command (joinCommand idxw f) := by
  cases i <;> cases h <;> rfl

/-- An instruction is well formed exactly when its index field is as wide as the word's. -/
theorem wf_iff_of_commandFields {idxw : Nat} {i : Instr} {f : CommandFields} (h : commandFields i = some f) :
    i.wf idxw = true ↔ f.idx < 2 ^ idxw := by
  cases i <;> cases h <;> simp [Instr.wf]

theorem some_eq_of_fields {f : CommandFields} {op : BitVec 4} {idx : Nat} {dat : BitVec 24}
    (hop : f.op.toNat = op.toNat) (hidx : f.idx = idx) (hdat : f.dat = dat) : some ⟨op, idx, dat⟩ = some f := by
  rw [← BitVec.eq_of_toNat_eq hop, ← hidx, ← hdat]

/-- Fields decode to an instruction only if it is written with them. -/
theorem commandFields_of_decodeFields {f : CommandFields} {i : Instr} (h : decodeFields f = .ok i) :
    commandFields i = some f := by
  unfold decodeFields at h
  split at h
  all_goals rename_i hop
  case h_4 =>
    cases h
    exact some_eq_of_fields hop rfl (dat_eq_rgb_iff.2 ⟨rfl, rfl, rfl⟩)
  case h_7 => cases h
  all_goals
    obtain ⟨hzero, rfl⟩ := Machine.ifZero_ok h
    simp only [Bool.and_eq_true, beq_iff_eq] at hzero
  case h_2 => exact some_eq_of_fields hop hzero.1 (dat_eq_percent_iff.2 ⟨hzero.2, rfl⟩)
  case h_5 => exact some_eq_of_fields hop rfl (dat_eq_packed_iff.2 ⟨hzero, rfl⟩)
  all_goals exact some_eq_of_fields hop hzero.1 hzero.2

/-- An instruction's fields decode to it. -/
theorem decodeFields_of_commandFields {f : CommandFields} {i : Instr} (h : commandFields i = some f) :
    decodeFields f = .ok i := by
  cases i with
  | begin => cases h; rfl
  | setrate percent =>
    cases h
    obtain ⟨hzero, hpercent⟩ := dat_eq_percent_iff.1 (Eq.refl (0#17 ++ percent))
    simp only [decodeFields, hzero, hpercent]; rfl
  | pixcount => cases h; rfl
  | setpixRgb index r g b =>
    cases h
    obtain ⟨hr, hg, hb⟩ := dat_eq_rgb_iff.1 (Eq.refl (r ++ g ++ b))
    simp only [decodeFields, hr, hg, hb]; rfl
  | setpixPacked index v =>
    cases h
    obtain ⟨hzero, hv⟩ := dat_eq_packed_iff.1 (Eq.refl (0#8 ++ v))
    simp only [decodeFields, hzero, hv]; rfl
  | refresh => cases h; rfl
  | tick => cases h
  | construct => cases h

theorem decodeFields_ok_iff {f : CommandFields} {i : Instr} : decodeFields f = .ok i ↔ commandFields i = some f :=
  ⟨commandFields_of_decodeFields, decodeFields_of_commandFields⟩

/-- A command word decodes to the instruction that its fields are written for (R69 to R72). -/
theorem decode_command_ok_iff {idxw w : Nat} {i : Instr} :
    decode idxw (.command w) = .ok i ↔ w < 2 ^ (28 + idxw) ∧ commandFields i = some (splitCommand idxw w) := by
  rw [← decodeFields_ok_iff]
  simp only [decode, decodeCommand]
  split <;> simp [*]

/-! ## The two round trips -/

theorem decode_encode_of_commandFields {idxw : Nat} {i : Instr} {f : CommandFields} (h : commandFields i = some f)
    (hwf : i.wf idxw = true) : decode idxw (encode idxw i) = .ok i := by
  have hidx : f.idx < 2 ^ idxw := (wf_iff_of_commandFields h).1 hwf
  rw [encode_of_commandFields h, decode_command_ok_iff, splitCommand_joinCommand hidx]
  exact ⟨joinCommand_lt hidx, h⟩

/-- Settles O1: a command through its fields, an event through its wire. -/
theorem decodeOfEncodeIsTheInstruction : Obligations.DecodeOfEncodeIsTheInstruction := by
  intro idxw i hwf
  cases i with
  | tick => exact Machine.decode_strobe_high idxw
  | construct count => exact Machine.decode_resetLine_high idxw count
  | _ => exact decode_encode_of_commandFields rfl hwf

/-- Settles O2, by the input's wire. -/
theorem encodeOfDecodeIsTheInput : Obligations.EncodeOfDecodeIsTheInput := by
  intro idxw p i h
  cases p with
  | command w =>
    obtain ⟨hw, hfields⟩ := decode_command_ok_iff.1 h
    exact ⟨(wf_iff_of_commandFields hfields).2 (splitCommand_idx_lt idxw w),
      (encode_of_commandFields hfields).trans (congrArg _ (joinCommand_splitCommand hw))⟩
  | strobe level =>
    obtain ⟨rfl, rfl⟩ := Machine.decode_strobe_ok h
    exact ⟨rfl, rfl⟩
  | resetLine level count =>
    obtain ⟨rfl, rfl⟩ := Machine.decode_resetLine_ok h
    exact ⟨rfl, rfl⟩

/-! ## Reserved words -/

theorem ifZero_ne_lineLow {z : Bool} {op : BitVec 4} {i : Instr} : ifZero z op i ≠ .error .lineLow := by
  cases z <;> simp [ifZero]

theorem decodeFields_ne_lineLow (f : CommandFields) : decodeFields f ≠ .error .lineLow := by
  unfold decodeFields
  split
  case h_4 => simp
  case h_7 => simp
  all_goals exact ifZero_ne_lineLow

theorem decode_command_ne_lineLow (idxw w : Nat) : decode idxw (.command w) ≠ .error .lineLow := by
  simp only [decode, decodeCommand]
  split
  · exact decodeFields_ne_lineLow _
  · simp

/-- The reserved fields of R72: an `op` of no row, or a field that is not 0 where the row says "must be 0". -/
def ReservedFields (f : CommandFields) : Prop :=
  f.op.toNat = 0 ∨ 7 ≤ f.op.toNat ∨
    ((f.op = 0x1#4 ∨ f.op = 0x3#4 ∨ f.op = 0x6#4) ∧ (f.idx ≠ 0 ∨ f.dat ≠ 0#24)) ∨
    (f.op = 0x2#4 ∧ (f.idx ≠ 0 ∨ f.dat.extractLsb' 7 17 ≠ 0#17)) ∨
    (f.op = 0x5#4 ∧ f.dat.extractLsb' 16 8 ≠ 0#8)

/-- No instruction is written with reserved fields. -/
theorem not_reservedFields_of_commandFields {f : CommandFields} {i : Instr} (h : commandFields i = some f) :
    ¬ ReservedFields f := by
  cases i with
  | setrate percent =>
    cases h
    simp [ReservedFields, (dat_eq_percent_iff.1 (Eq.refl (0#17 ++ percent))).1]
  | setpixPacked index v =>
    cases h
    simp [ReservedFields, (dat_eq_packed_iff.1 (Eq.refl (0#8 ++ v))).1]
  | _ => cases h <;> simp [ReservedFields]

/-- A foreground turn that presents a word of no instruction refuses it (R72). -/
theorem step_refuses_of_undecoded {s : Machine.State} {w : Nat} {turns : List Machine.Turn} {cmds : List Nat}
    (ht : s.turns = .foreground :: turns) (hf : s.fg = .ready) (hc : s.cmds = w :: cmds)
    (hd : ∀ i, decode s.idxw (.command w) ≠ .ok i) : ∃ e, Machine.step s = .refused (.reservedWord e) := by
  rw [Machine.step_issue ht hf hc]
  rcases hx : decode s.idxw (.command w) with e | i
  · cases e with
    | lineLow => exact absurd hx (decode_command_ne_lineLow s.idxw w)
    | _ => exact ⟨_, rfl⟩
  · exact absurd hx (hd i)

/-- Settles O5: a word with reserved fields is the word of no instruction; the second part is O1 at SETRATE. -/
theorem reservedWordIsRefused : Obligations.ReservedWordIsRefused := by
  refine ⟨fun s w turns cmds f ht hf hc _ hsplit hreserved => ?_, fun idxw p => ?_⟩
  · subst hsplit
    exact step_refuses_of_undecoded ht hf hc fun i hd =>
      not_reservedFields_of_commandFields (decode_command_ok_iff.1 hd).2 hreserved
  · exact decodeOfEncodeIsTheInstruction idxw (.setrate p) rfl

end Sys2Proof
end

section
/-! The rows of the opcode map at `IDXW = 16` (R70): match and mask, read field by field. -/

namespace Sys2Proof

/-- A word under a mask, above and below a cut. -/
theorem and_eq_append_iff {n k : Nat} {x : BitVec (n + k)} {maskHi hi : BitVec n} {maskLo lo : BitVec k} :
    x &&& (maskHi ++ maskLo) = hi ++ lo ↔
      x.extractLsb' k n &&& maskHi = hi ∧ x.extractLsb' 0 k &&& maskLo = lo := by
  rw [eq_append_iff, BitVec.extractLsb'_and, BitVec.extractLsb'_and, BitVec.extractLsb'_append_eq_left,
    BitVec.extractLsb'_append_eq_right]

/-- A command word under a mask, field by field. -/
theorem word44_and_eq_iff {cw : BitVec 44} {maskOp op : BitVec 4} {maskIdx idx : BitVec 16}
    {maskDat dat : BitVec 24} :
    cw &&& (maskOp ++ maskIdx ++ maskDat) = op ++ idx ++ dat ↔
      cw.extractLsb' 40 4 &&& maskOp = op ∧ cw.extractLsb' 24 16 &&& maskIdx = idx ∧
        cw.extractLsb' 0 24 &&& maskDat = dat := by
  rw [and_eq_append_iff (n := 20) (k := 24), and_eq_append_iff (n := 4) (k := 16),
    extract_extract cw (by decide), extract_extract cw (by decide), and_assoc]

theorem splitCommand_word44 (cw : BitVec 44) :
    splitCommand 16 cw.toNat = ⟨cw.extractLsb' 40 4, (cw.extractLsb' 24 16).toNat, cw.extractLsb' 0 24⟩ := by
  simp only [splitCommand, BitVec.extractLsb', BitVec.toNat_ofNat, Nat.shiftRight_eq_div_pow, Nat.pow_zero,
    Nat.div_one, Nat.reduceAdd]

/-- A 44-bit word decodes to an instruction exactly when its fields are the instruction's. -/
theorem decode_word44_iff {cw : BitVec 44} {i : Instr} {op : BitVec 4} {idx : Nat} {dat : BitVec 24}
    (h : commandFields i = some ⟨op, idx, dat⟩) :
    decode 16 (.command cw.toNat) = .ok i ↔
      cw.extractLsb' 40 4 = op ∧ (cw.extractLsb' 24 16).toNat = idx ∧ cw.extractLsb' 0 24 = dat := by
  rw [decode_command_ok_iff, h, splitCommand_word44, and_iff_right cw.isLt]
  simp [eq_comm]

theorem toNat_idx_eq_zero_iff {idx : BitVec 16} : idx.toNat = 0 ↔ idx = 0#16 :=
  BitVec.toNat_inj (y := 0#16)

/-- The rows without operands: BEGIN, PIXCOUNT, REFRESH. -/
theorem decode_bare_iff {cw : BitVec 44} {i : Instr} {op : BitVec 4} {m : BitVec 44}
    (h : commandFields i = some ⟨op, 0, 0#24⟩) (hm : m = op ++ 0#16 ++ 0#24) :
    decode 16 (.command cw.toNat) = .ok i ↔ cw &&& 0xFFFFFFFFFFF#44 = m := by
  have hmask : 0xFFFFFFFFFFF#44 = BitVec.allOnes 4 ++ BitVec.allOnes 16 ++ BitVec.allOnes 24 := by decide
  rw [decode_word44_iff h, hmask, hm, word44_and_eq_iff]
  simp only [BitVec.and_allOnes, toNat_idx_eq_zero_iff]

theorem decode_setrate_iff {cw : BitVec 44} {p : BitVec 7} :
    decode 16 (.command cw.toNat) = .ok (.setrate p) ↔
      cw &&& 0xFFFFFFFFF80#44 = 0x20000000000#44 ∧ p = cw.extractLsb' 0 7 := by
  have hmask : 0xFFFFFFFFF80#44 = BitVec.allOnes 4 ++ BitVec.allOnes 16 ++ (BitVec.allOnes 17 ++ 0#7) := by decide
  have hmatch : 0x20000000000#44 = 0x2#4 ++ 0#16 ++ (0#17 ++ 0#7) := by decide
  rw [decode_word44_iff rfl, hmask, hmatch, word44_and_eq_iff, dat_eq_percent_iff,
    and_eq_append_iff (n := 17) (k := 7), extract_extract cw (by decide), extract_extract cw (by decide)]
  simp only [BitVec.and_allOnes, BitVec.and_zero, toNat_idx_eq_zero_iff, Nat.zero_add, and_true, and_assoc,
    eq_comm (a := p)]

theorem decode_setpixRgb_iff {cw : BitVec 44} {index : Nat} {r g b : BitVec 8} :
    decode 16 (.command cw.toNat) = .ok (.setpixRgb index r g b) ↔
      cw &&& 0xF0000000000#44 = 0x40000000000#44 ∧ index = (cw.extractLsb' 24 16).toNat ∧
        r = cw.extractLsb' 16 8 ∧ g = cw.extractLsb' 8 8 ∧ b = cw.extractLsb' 0 8 := by
  have hmask : 0xF0000000000#44 = BitVec.allOnes 4 ++ 0#16 ++ 0#24 := by decide
  have hmatch : 0x40000000000#44 = 0x4#4 ++ 0#16 ++ 0#24 := by decide
  rw [decode_word44_iff rfl, hmask, hmatch, word44_and_eq_iff, dat_eq_rgb_iff, extract_extract cw (by decide),
    extract_extract cw (by decide), extract_extract cw (by decide)]
  simp only [BitVec.and_allOnes, BitVec.and_zero, Nat.zero_add, and_true, eq_comm (a := index), eq_comm (a := r),
    eq_comm (a := g), eq_comm (a := b)]

theorem decode_setpixPacked_iff {cw : BitVec 44} {index : Nat} {v : BitVec 16} :
    decode 16 (.command cw.toNat) = .ok (.setpixPacked index v) ↔
      cw &&& 0xF0000FF0000#44 = 0x50000000000#44 ∧ index = (cw.extractLsb' 24 16).toNat ∧
        v = cw.extractLsb' 0 16 := by
  have hmask : 0xF0000FF0000#44 = BitVec.allOnes 4 ++ 0#16 ++ (BitVec.allOnes 8 ++ 0#16) := by decide
  have hmatch : 0x50000000000#44 = 0x5#4 ++ 0#16 ++ (0#8 ++ 0#16) := by decide
  rw [decode_word44_iff rfl, hmask, hmatch, word44_and_eq_iff, dat_eq_packed_iff,
    and_eq_append_iff (n := 8) (k := 16), extract_extract cw (by decide), extract_extract cw (by decide)]
  simp only [BitVec.and_allOnes, BitVec.and_zero, Nat.zero_add, and_true, true_and, and_assoc,
    eq_comm (a := index), eq_comm (a := v)]
  exact and_congr_right fun _ => and_left_comm

/-- Settles O4, row by row. -/
theorem commandSelectedByMatchAndMask : Obligations.CommandSelectedByMatchAndMask :=
  fun _ => ⟨decode_bare_iff rfl (by decide), fun _ => decode_setrate_iff, decode_bare_iff rfl (by decide),
    fun _ _ _ _ => decode_setpixRgb_iff, fun _ _ => decode_setpixPacked_iff, decode_bare_iff rfl (by decide)⟩

end Sys2Proof
end

section
/-! The cases of TICK one by one, its frame, and what it sends (R81 to R84, R90, R91). -/

namespace Sys2Proof.Machine

/-- Settles O31: case IDLE of TICK. -/
theorem tickIdleSendsOneFiller : Obligations.TickIdleSendsOneFiller :=
  fun _ hst hs hr => execTick_idle hst hs hr

/-- Settles O32: case START of TICK. -/
theorem tickStartBeginsAPass : Obligations.TickStartBeginsAPass :=
  fun _ hst hs hr => execTick_start hst hs hr

/-- Settles O33: a tick in a pass, with the cursor not yet at the last word. -/
theorem tickWordSendsAndAdvances : Obligations.TickWordSendsAndAdvances := by
  intro s hst hs hp
  have hlt : s.position < s.count := by omega
  refine ⟨_, memRead_of_lt hlt, ?_⟩
  rw [exec_tick, execTick_pass hst hs hlt]
  simp [Nat.ne_of_lt hp, hs, busBytes, highByte, lowByte]

/-- Settles O34: a tick in a pass, with the cursor at the last word. -/
theorem tickLastEndsThePass : Obligations.TickLastEndsThePass := by
  intro s hst hs hp
  have hlt : s.position < s.count := by omega
  refine ⟨_, memRead_of_lt hlt, ?_⟩
  rw [exec_tick, execTick_pass hst hs hlt]
  simp [hp, busBytes, highByte, lowByte]

/-- Settles O37: a tick writes what `tickUpdate` writes. -/
theorem tickFrame : Obligations.TickFrame := by
  intro s t h
  obtain ⟨bytes, streaming, refreshRequested, position, rfl⟩ := execTick_eq_tickUpdate h
  exact ⟨memRead_congr rfl rfl, rfl, rfl, rfl, rfl, rfl, rfl, rfl, rfl, rfl, rfl, rfl⟩

/-- Settles O39, by the case of TICK. -/
theorem tickSendsOneOrTwoBytes : Obligations.TickSendsOneOrTwoBytes := by
  intro s t hst h
  rcases execTick_next h with ⟨hstopped, _⟩ | ⟨_, hidle, _, rfl⟩ | ⟨_, hidle, _, rfl⟩ | ⟨_, hpass, hp, rfl⟩
  · cases hst.symm.trans hstopped
  · exact ⟨fun _ => rfl, fun hpass => nomatch hidle.symm.trans hpass⟩
  · exact ⟨fun _ => rfl, fun hpass => nomatch hidle.symm.trans hpass⟩
  · exact ⟨fun hidle => (nomatch hidle.symm.trans hpass), fun _ => ⟨_, memRead_of_lt hp, rfl⟩⟩

end Sys2Proof.Machine
end

section
/-! A whole pass (R87, R88): the START tick, then one tick a word, the last of which returns to Idle. -/

namespace Sys2Proof.Machine

/-! ## The bytes of a stretch of the store -/

theorem storeWords_length (m : Memory) (n : Nat) : ∀ i : Nat, (storeWords m i n).length = n := by
  induction n with
  | zero => exact fun _ => rfl
  | succ n ih => exact fun i => congrArg (· + 1) (ih (i + 1))

theorem storeWords_concat (m : Memory) (n : Nat) : ∀ i : Nat,
    storeWords m i (n + 1) = storeWords m i n ++ [Memory.read m (i + n)] := by
  induction n with
  | zero => exact fun _ => rfl
  | succ n ih =>
    intro i
    rw [storeWords, ih, Nat.add_right_comm i 1 n, Nat.add_assoc i n 1]
    rfl

theorem dataBytes_length (ws : List Word) : (dataBytes ws).length = 2 * ws.length := by
  simp [dataBytes, List.length_flatMap, busBytes_length, Nat.mul_comm]

/-! ## Ticks in a pass -/

/-- A running pass `n` words further on: they are sent, and at COUNT the pass is over. -/
def passAdvanced (n : Nat) (s : State) : State :=
  { s with
    bus := s.bus ++ dataBytes (storeWords s.buf s.position n)
    position := s.position + n
    streaming := !decide (s.position + n = s.count) }

/-- One more word, sent by one more tick (R83, R84). -/
theorem execTick_passAdvanced {n : Nat} {s : State} (hst : s.started = true) (hp : s.position + n < s.count) :
    execTick (passAdvanced n s) = .next (passAdvanced (n + 1) s) := by
  have hruns : (passAdvanced n s).streaming = true := by simp [passAdvanced, Nat.ne_of_lt hp]
  rw [execTick_pass (s := passAdvanced n s) hst hruns hp]
  simp only [passAdvanced, storeWords_concat, dataBytes_concat, List.append_assoc, Nat.add_assoc]

/-- From a running pass, `n` ticks send the next `n` words, as long as there are so many. -/
theorem ticks_pass {s : State} (hst : s.started = true) (hs : s.streaming = true) (hp : s.position < s.count)
    {n : Nat} (hn : s.position + n ≤ s.count) : ticks n s = .next (passAdvanced n s) := by
  induction n with
  | zero => simp [ticks_zero, passAdvanced, storeWords, dataBytes, Nat.ne_of_lt hp, ← hs]
  | succ n ih => rw [ticks_add (ih (by omega)), ticks_succ_of_tick (execTick_passAdvanced hst hn), ticks_zero]

/-- A pass begun from Idle with `n` words sent: the request is cleared, the preamble stands before the words. -/
def passBegun (n : Nat) (s : State) : State :=
  { s with
    refreshRequested := false
    bus := s.bus ++ filler :: dataBytes (storeWords s.buf 0 n)
    position := n
    streaming := !decide (n = s.count) }

/-- From Idle with a request pending, the START tick and `n` more send the preamble and the first `n` words. -/
theorem ticks_request {s : State} (hinv : Inv s) (hst : s.started = true) (hs : s.streaming = false)
    (hr : s.refreshRequested = true) {n : Nat} (hn : n ≤ s.count) : ticks (1 + n) s = .next (passBegun n s) := by
  obtain ⟨hpos, _⟩ := countLegal_iff.1 hinv.count_legal
  have hstart : execTick s = .next (passBegun 0 s) := by
    rw [execTick_start hst hs hr, passBegun, decide_eq_false (Nat.ne_of_lt hpos)]
    rfl
  have hruns : (passBegun 0 s).streaming = true := by simp [passBegun, Nat.ne_of_lt hpos]
  have hn' : (passBegun 0 s).position + n ≤ s.count := by rwa [passBegun, Nat.zero_add]
  rw [Nat.add_comm, ticks_succ_of_tick hstart, ticks_pass (s := passBegun 0 s) hst hruns hpos hn']
  simp [passAdvanced, passBegun, storeWords, dataBytes]

theorem passBegun_bus_length (n : Nat) (s : State) : (passBegun n s).bus.length = s.bus.length + 1 + 2 * n := by
  simp only [passBegun, List.length_append, List.length_cons, dataBytes_length, storeWords_length]
  omega

/-! ## The obligations -/

/-- Settles O40: with COUNT words sent the pass is over. -/
theorem passSendsTheWholeStore : Obligations.PassSendsTheWholeStore := by
  intro s hinv hst hs hr
  rw [ticks_request hinv hst hs hr le_rfl]
  simp [passBegun, filler, hs]

/-- Settles O41: the pass runs as long as fewer than COUNT words are sent. -/
theorem passRunsUntilItsLastTick : Obligations.PassRunsUntilItsLastTick := by
  intro s hinv hst hs hr
  constructor
  · intro n hpos hn
    obtain ⟨k, rfl⟩ := Nat.exists_eq_add_of_le hpos
    rw [Nat.add_sub_cancel_left]
    have hk : k < s.count := by omega
    exact ⟨_, ticks_request hinv hst hs hr hk.le, by simp [passBegun, hk.ne], rfl, passBegun_bus_length k s⟩
  · exact ⟨_, ticks_request hinv hst hs hr le_rfl, by simp [passBegun], passBegun_bus_length s.count s⟩

/-- Settles O42: the LAST tick leaves the request standing, so the next tick is START. -/
theorem pendingRequestStartsPassAtOnce : Obligations.PendingRequestStartsPassAtOnce := by
  intro s hinv hs hr hp
  have hst : s.started = true := hinv.pass_started hs
  have hlt : s.position < s.count := by omega
  have hover : (passAdvanced 1 s).streaming = false := by simp [passAdvanced, hp]
  refine ⟨_, memRead_of_lt hlt, ?_⟩
  rw [ticks_add (n := 1) (k := 1) (ticks_pass hst hs hlt hp.le),
    ticks_succ_of_tick (n := 0) (execTick_start (s := passAdvanced 1 s) hst hover hr), ticks_zero]
  simp [passAdvanced, storeWords, dataBytes, busBytes, highByte, lowByte, filler, hs]

end Sys2Proof.Machine
end

section
/-! The transmission state machine moves on delivered ticks only (R86). -/

namespace Sys2Proof.Machine

/-- Without a reset only a tick moves `streaming` or `position`. -/
theorem Stepped.tick_of_moved {s t : State} (h : Stepped s t) (hn : noReset s)
    (hm : t.streaming ≠ s.streaming ∨ t.position ≠ s.position) :
    ∃ turns, s.turns = .strobe 1#1 :: turns ∧ execTick { s with turns := turns } = .next t := by
  have not_moved : ¬ (t.streaming = s.streaming ∧ t.position = s.position) := not_and_or.2 hm
  cases h with
  | issue turns w cmds i ht hf hc hd h => exact absurd ⟨h.streaming_eq, h.position_eq⟩ not_moved
  | resume turns ht hc h =>
    rw [resumeForeground_eq_update h] at not_moved
    exact absurd ⟨rfl, rfl⟩ not_moved
  | tick turns ht h => exact ⟨turns, ht, h⟩
  | reset turns count ht hc => exact absurd ht (turns_ne_resetLine hn)
  | lowLine turns ht => exact absurd ⟨rfl, rfl⟩ not_moved

/-- What a tick that moves `streaming` was: START from Idle, LAST from Streaming. -/
theorem execTick_streaming_changed {s t : State} (h : execTick s = .next t) (hm : t.streaming ≠ s.streaming) :
    s.started = true ∧ (s.streaming = false → s.refreshRequested = true ∧ t.position = 0) ∧
      (s.streaming = true → s.position + 1 = s.count) := by
  rcases execTick_next h with ⟨_, rfl⟩ | ⟨_, _, _, rfl⟩ | ⟨hst, hidle, hr, rfl⟩ | ⟨hst, hpass, _, rfl⟩
  · exact absurd rfl hm
  · exact absurd rfl hm
  · exact ⟨hst, fun _ => ⟨hr, rfl⟩, fun hpass => nomatch hidle.symm.trans hpass⟩
  · exact ⟨hst, fun hidle => (nomatch hidle.symm.trans hpass), fun _ => by simpa [hpass] using hm⟩

/-- A tick that moves the cursor was delivered, and in Streaming it moves it by one. -/
theorem execTick_position_changed {s t : State} (h : execTick s = .next t) (hm : t.position ≠ s.position) :
    s.started = true ∧ (s.streaming = true → t.position = s.position + 1) := by
  rcases execTick_next h with ⟨_, rfl⟩ | ⟨_, _, _, rfl⟩ | ⟨hst, hidle, _, rfl⟩ | ⟨hst, _, _, rfl⟩
  · exact absurd rfl hm
  · exact absurd rfl hm
  · exact ⟨hst, fun hpass => nomatch hidle.symm.trans hpass⟩
  · exact ⟨hst, fun _ => rfl⟩

/-- Settles O52: a step that moves the machine is a tick, and which case of TICK it was says the rest. -/
theorem onlyTicksMoveTheStateMachine : Obligations.OnlyTicksMoveTheStateMachine := by
  intro s t hn h
  constructor
  · intro hm
    obtain ⟨turns, ht, htick⟩ := (stepped_of_step h).tick_of_moved hn (.inl hm)
    obtain ⟨hst, hstart, hlast⟩ := execTick_streaming_changed htick hm
    exact ⟨hst, ⟨turns, ht⟩, hstart, hlast⟩
  · intro hm
    obtain ⟨turns, ht, htick⟩ := (stepped_of_step h).tick_of_moved hn (.inr hm)
    obtain ⟨hst, hadvance⟩ := execTick_position_changed htick hm
    exact ⟨hst, ⟨turns, ht⟩, hadvance⟩

end Sys2Proof.Machine
end

section
/-! PIXCOUNT and SETPIX (R100 to R110): what is issued, and the SETPIX in progress through GATE and WRITE. -/

namespace Sys2Proof.Machine

/-! ## Issue -/

/-- Settles O18: PIXCOUNT, issued at a ready port. -/
theorem pixcountReturnsCount : Obligations.PixcountReturnsCount :=
  fun _ hf => exec_of_issued hf .pixcount

/-- Settles O20, by the side of the bound on which the index lies. -/
theorem setpixIssueChecksTheBound : Obligations.SetpixIssueChecksTheBound := by
  intro s index hf
  constructor
  · intro hout
    exact ⟨fun r g b => exec_of_issued hf (.rgbOut index r g b hout),
      fun v => exec_of_issued hf (.packedOut index v hout)⟩
  · intro hin
    exact ⟨fun r g b => exec_of_issued hf (.rgbIn index r g b hin),
      fun v => exec_of_issued hf (.packedIn index v hin)⟩

/-! ## GATE, the hold, WRITE -/

/-- With a SETPIX in progress a foreground turn goes on with it, whatever commands are to come (R68). -/
theorem step_in_progress {s : State} {turns : List Turn} (ht : s.turns = .foreground :: turns) (hf : s.fg ≠ .ready) :
    step s = resumeForeground { s with turns := turns } :=
  step_resume ht fun hready => absurd hready hf

/-- Settles O23: the turn is GATE, at an open gate. -/
theorem gatePassesWhenIdle : Obligations.GatePassesWhenIdle := by
  intro s i w turns ht hf hs
  rw [step_in_progress ht (by simp [hf])]
  exact resumeForeground_gate (s := { s with turns := turns }) hf hs

/-- At a closed gate a foreground turn is used up and nothing else changes (R105). -/
theorem step_held {s : State} {i : Nat} {w : Word} {turns : List Turn} (ht : s.turns = .foreground :: turns)
    (hf : s.fg = .waitGate i w) (hs : s.streaming = true) : step s = .next { s with turns := turns } := by
  rw [step_in_progress ht (by simp [hf])]
  exact resumeForeground_held (s := { s with turns := turns }) hf hs

/-- Settles O24, by induction on the number of foreground turns: after each the SETPIX is still held. -/
theorem heldForegroundHasNoStep : Obligations.HeldForegroundHasNoStep := by
  intro n
  induction n with
  | zero =>
    intro s i w turns ht hf hs
    obtain rfl : s.turns = turns := ht
    exact steps_zero s
  | succ n ih =>
    intro s i w turns ht hf hs
    have hstep := step_held (turns := List.replicate n .foreground ++ turns) ht hf hs
    rw [steps_succ_of_step hstep]
    exact ih _ i w turns rfl hf hs

/-- Settles O25: the turn is WRITE, and a read of the store it leaves is a read after that write. -/
theorem writeStoresTheGrantedWord : Obligations.WriteStoresTheGrantedWord := by
  intro s i w turns ht hf hi hwf
  refine ⟨_, ?_, rfl, ?_, ?_⟩
  · rw [step_in_progress ht (by simp [hf])]
    exact resumeForeground_write (s := { s with turns := turns }) hf hi
  · simp only [memRead, if_pos hi, Memory.read_write_self hwf]
  · intro a ha
    simp only [memRead, Memory.read_write_of_ne ha]

/-! ## A whole SETPIX -/

/-- A command whose issue leaves `word` waiting at the gate for `index` is taken through GATE and WRITE by two more
foreground turns, while no pass runs (R107). -/
theorem setpix_completes {s : State} {w index : Nat} {i : Instr} {word : Word} {turns : List Turn} {cmds : List Nat}
    (hf : s.fg = .ready) (hs : s.streaming = false) (hi : index < s.count) (hwf : Memory.wf s.buf = true)
    (ht : s.turns = .foreground :: .foreground :: .foreground :: turns) (hc : s.cmds = w :: cmds)
    (hd : decode s.idxw (.command w) = .ok i)
    (hissue : ∀ u : State, index < u.count → Issued u i { u with fg := .waitGate index word }) :
    ∃ t : State, steps 3 s = .next t ∧
      t = { s with
        buf := Memory.write s.buf index word
        turns := turns
        cmds := cmds
        resp := s.resp ++ [.done] } ∧
      memRead t index = some word ∧
      (∀ a, a ≠ index → memRead t a = memRead s a) := by
  have hissued := (step_issue_decoded ht hf hc hd).trans (exec_of_issued hf (hissue _ hi))
  have hgated := gatePassesWhenIdle
    { s with turns := .foreground :: .foreground :: turns, cmds := cmds, fg := .waitGate index word }
    index word (.foreground :: turns) rfl rfl hs
  obtain ⟨t, hwritten, ht', hself, hother⟩ := writeStoresTheGrantedWord
    { s with turns := .foreground :: turns, cmds := cmds, fg := .granted index word }
    index word turns rfl rfl hi hwf
  refine ⟨t, ?_, ?_, hself, hother⟩
  · rw [steps_succ_of_step hissued, steps_succ_of_step hgated, steps_succ_of_step hwritten, steps_zero]
  · rw [ht', ← hf]

/-- Settles O21: `setpix_completes` of the word SETPIX_RGB is issued with. -/
theorem setpixRgbCompletesInThreeTurns : Obligations.SetpixRgbCompletesInThreeTurns := by
  intro s w index r g b turns cmds hf hs hi hwf ht hc hd
  exact setpix_completes hf hs hi hwf ht hc hd fun _ => .rgbIn index r g b

/-- Settles O22: `setpix_completes` of the word SETPIX_PACKED is issued with. -/
theorem setpixPackedCompletesInThreeTurns : Obligations.SetpixPackedCompletesInThreeTurns := by
  intro s w index v turns cmds hf hs hi hwf ht hc hd
  exact setpix_completes hf hs hi hwf ht hc hd fun _ => .packedIn index v

end Sys2Proof.Machine
end

section
/-! When the gate opens (R108): at the LAST tick of the running pass, and for good after at most one pass more. -/

namespace Sys2Proof.Machine

/-- Idle with no request, ticks send fillers and nothing else (R81). -/
theorem ticks_idle {s : State} (hst : s.started = true) (hs : s.streaming = false) (hr : s.refreshRequested = false)
    (k : Nat) : ticks k s = .next { s with bus := s.bus ++ List.replicate k filler } := by
  induction k generalizing s with
  | zero => simp [ticks_zero]
  | succ k ih =>
    rw [ticks_succ_of_tick (execTick_idle hst hs hr), ih (s := { s with bus := s.bus ++ [filler] }) hst hs hr]
    simp [List.replicate_succ]

/-- `ticks_idle` at the end of a run of ticks: Idle with no request is for good, and the port stays as it is. -/
theorem ticks_idle_forGood {n : Nat} {s t : State} (ht : ticks n s = .next t) (hst : t.started = true)
    (hs : t.streaming = false) (hr : t.refreshRequested = false) (hfg : t.fg = s.fg) (k : Nat) :
    ∃ u : State, ticks (n + k) s = .next u ∧ u.streaming = false ∧ u.refreshRequested = false ∧ u.fg = s.fg :=
  ⟨_, (ticks_add ht).trans (ticks_idle hst hs hr k), hs, hr, hfg⟩

theorem ticks_keeps_inv {n : Nat} : ∀ {s t : State}, Inv s → ticks n s = .next t → Inv t := by
  induction n with
  | zero => intro s t hs h; cases h; exact hs
  | succ n ih =>
    intro s t hs h
    obtain ⟨u, hu⟩ := hs.execTick_answers
    rw [ticks_succ_of_tick hu] at h
    exact ih (execTick_keeps_inv hs hu) h

/-- The rest of a running pass: `COUNT - position` ticks, the last of which returns to Idle (R84, R108). -/
theorem ticks_restOfPass {s : State} (hinv : Inv s) (hs : s.streaming = true) :
    ∃ t : State, ticks (s.count - s.position) s = .next t ∧ t.streaming = false ∧ t.started = true ∧
      t.refreshRequested = s.refreshRequested ∧ t.count = s.count ∧ t.fg = s.fg := by
  have hst : s.started = true := hinv.pass_started hs
  have hp : s.position < s.count := hinv.cursor_in_range hs
  have hend : s.position + (s.count - s.position) = s.count := by omega
  exact ⟨_, ticks_pass hst hs hp hend.le, by simp [passAdvanced, hend], hst, rfl, rfl, rfl⟩

/-- Settles O43: the pass ends with its last word; a request pending there costs one pass more, which clears it. -/
theorem gateOpensForGoodWithinTwoPasses : Obligations.GateOpensForGoodWithinTwoPasses := by
  intro s hinv hs
  obtain ⟨t, hpass, hidle, hst, hreq, hcount, hfg⟩ := ticks_restOfPass hinv hs
  refine ⟨⟨t, hpass, hidle, hreq⟩, ?_, ?_⟩
  · intro m hm
    have hmore : s.position + m < s.count := by omega
    exact ⟨_, ticks_pass (hinv.pass_started hs) hs (hinv.cursor_in_range hs) hmore.le,
      by simp [passAdvanced, hmore.ne]⟩
  · cases hr : t.refreshRequested with
    | false => exact ⟨s.count - s.position, by omega, ticks_idle_forGood hpass hst hidle hr hfg⟩
    | true =>
      have hsecond := passSendsTheWholeStore t (ticks_keeps_inv hinv hpass) hst hidle hr
      have hboth := (ticks_add hpass).trans hsecond
      exact ⟨s.count - s.position + (1 + t.count), by omega, ticks_idle_forGood hboth hst hidle rfl hfg⟩

end Sys2Proof.Machine
end

section
/-! The controller operations BEGIN, SETRATE, REFRESH and CONSTRUCT (R120 to R129): what each issues, what it refuses, the
tick period and the range of the rate. -/

namespace Sys2Proof.Machine

/-! ## The tick period -/

/-- The period is a floor: the two bounds of the quotient (R127). -/
theorem periodWith_bounds (p100 : Nat) {p : BitVec 7} (hp : 1 ≤ p.toNat) :
    p.toNat * periodWith p100 p ≤ 100 * p100 ∧ 100 * p100 < p.toNat * (periodWith p100 p + 1) :=
  ⟨Nat.mul_div_le _ _, Nat.lt_mul_div_succ _ hp⟩

theorem periodWith_full (p100 : Nat) : periodWith p100 100#7 = p100 :=
  Nat.mul_div_cancel_left p100 (by decide : 0 < 100)

theorem periodWith_one (p100 : Nat) : periodWith p100 1#7 = 100 * p100 := Nat.div_one _

/-- Settles O10: each part is a fact about the period for every `P100_US`. -/
theorem periodOfIsFlooredReciprocal : Obligations.PeriodOfIsFlooredReciprocal :=
  ⟨fun _ hp _ => periodWith_bounds _ hp, periodWith_full _, periodWith_one _,
    fun _ _ hp hpq _ => periodWith_antitone _ hp hpq⟩

/-! ## What is issued -/

/-- Settles O14: the three platform events are appended one after another. -/
theorem beginStartsTheTickSource : Obligations.BeginStartsTheTickSource := by
  intro s hf hst
  rw [exec_of_issued hf (.begin hst)]
  simp only [List.append_assoc, List.cons_append, List.nil_append]

/-- Settles O16: the percent is a legal one, and so SETRATE is issued. -/
theorem setrateStoresAndPrograms : Obligations.SetrateStoresAndPrograms :=
  fun _ p hf hpos hle => exec_of_issued hf (.setrate p (percentLegal_iff.2 ⟨hpos, hle⟩))

/-- Settles O19: REFRESH, issued at a ready port. -/
theorem refreshSetsTheRequest : Obligations.RefreshSetsTheRequest :=
  fun _ hf => exec_of_issued hf .refresh

/-! ## What is refused -/

theorem execBegin_started {s : State} (hf : s.fg = .ready) (hst : s.started = true) :
    execBegin s = .refused .secondBegin := by
  rw [execBegin, whenReady_ready hf]
  simp only [hst]

theorem execSetrate_illegal {s : State} {p : BitVec 7} (hf : s.fg = .ready) (hp : percentLegal p = false) :
    execSetrate p s = .refused .percentOutOfRange := by
  rw [execSetrate, whenReady_ready hf]
  simp only [hp]

/-- Settles O15: the arm of BEGIN at a started tick source. -/
theorem secondBeginIsRefused : Obligations.SecondBeginIsRefused :=
  fun _ hf hst => execBegin_started hf hst

/-- Settles O29: a count below 1, or one that does not fit in the index width, is not legal. -/
theorem constructOutOfRangeIsRefused : Obligations.ConstructOutOfRangeIsRefused := by
  intro s c hout
  have hc : ¬ countLegal s.idxw c = true := by
    rw [countLegal_iff]
    omega
  exact execConstruct_illegal (Bool.eq_false_of_not_eq_true hc)

/-! ## The range of the rate -/

/-- A command that is issued either is SETRATE of a legal percent or leaves the rate alone (R26, R36). -/
theorem Issued.keeps_rate_legal {i : Instr} {s t : State} (h : Issued s i t) (hs : percentLegal s.rate = true) :
    percentLegal t.rate = true := by
  cases h with
  | setrate p hp => exact hp
  | _ => exact hs

/-- No instruction takes the rate out of its range: a command by what it issues, TICK because it does not write the rate,
CONSTRUCT because it stores the legal reset value. -/
theorem exec_keeps_rate_legal {i : Instr} {s t : State} (hs : percentLegal s.rate = true) (h : exec i s = .next t) :
    percentLegal t.rate = true := by
  cases i with
  | tick =>
    obtain ⟨_, _, _, _, rfl⟩ := execTick_eq_tickUpdate h
    exact hs
  | construct c =>
    obtain ⟨_, rfl⟩ := execConstruct_next h
    exact rateReset_legal
  | _ =>
    rcases exec_command_next rfl h with ⟨_, rfl⟩ | ⟨_, h⟩
    · exact hs
    · exact h.keeps_rate_legal hs

/-- Settles O17: the refusal by the range check of SETRATE, the safety by `exec_keeps_rate_legal`. -/
theorem setrateOutOfRangeIsRefused : Obligations.SetrateOutOfRangeIsRefused := by
  constructor
  · intro s p hf hout
    have hp : ¬ percentLegal p = true := by
      rw [percentLegal_iff]
      omega
    exact execSetrate_illegal hf (Bool.eq_false_of_not_eq_true hp)
  · intro i s t hpos hle h
    exact percentLegal_iff.1 (exec_keeps_rate_legal (percentLegal_iff.2 ⟨hpos, hle⟩) h)

/-! ## Before BEGIN -/

/-- No pass runs before the tick source is started (R34, R129). -/
theorem Inv.idle_of_stopped {s : State} (h : Inv s) (hst : s.started = false) : s.streaming = false := by
  by_contra hs
  rw [h.pass_started (Bool.eq_true_of_not_eq_false hs)] at hst
  cases hst

/-- Settles O59: the block is Idle, and in Idle the turn of a waiting SETPIX is GATE. -/
theorem beforeBeginSetpixNeverWaits : Obligations.BeforeBeginSetpixNeverWaits := by
  intro s hinv hst
  have hidle : s.streaming = false := hinv.idle_of_stopped hst
  exact ⟨hidle, fun i w turns ht hf => gatePassesWhenIdle s i w turns ht hf hidle⟩

end Sys2Proof.Machine
end

section
/-! The laws of packing (R113): a marked word is its low 15 bits, and these are its three channels. -/

namespace Sys2Proof.Machine

/-! ## A marked word and its fields -/

/-- The marker and the 15 bits below it make up a word (R60). -/
theorem eq_of_marked_of_low_eq {v w : Word} (hv : marked v = true) (hw : marked w = true)
    (hlow : v.extractLsb' 0 15 = w.extractLsb' 0 15) : v = w := by
  rw [marked, BitVec.getLsbD_eq_extractLsb', beq_iff_eq] at hv hw
  have hjoin (u : Word) : u.extractLsb' 15 1 ++ u.extractLsb' 0 15 = u :=
    BitVec.extractLsb'_append_extractLsb' (w := 1) (len := 15)
  rw [← hjoin v, ← hjoin w, hv, hw, hlow]

/-- The bits below the marker are green, blue and red (R60). -/
theorem channels_append (w : Word) :
    w.extractLsb' 10 5 ++ (w.extractLsb' 5 5 ++ w.extractLsb' 0 5) = w.extractLsb' 0 15 := by
  rw [BitVec.extractLsb'_append_extractLsb'_eq_extractLsb' (show 5 = 0 + 5 from rfl),
    BitVec.extractLsb'_append_extractLsb'_eq_extractLsb' (show 10 = 0 + (5 + 5) from rfl)]

theorem eq_of_marked_of_channels_eq {v w : Word} (hv : marked v = true) (hw : marked w = true)
    (hgreen : v.extractLsb' 10 5 = w.extractLsb' 10 5) (hblue : v.extractLsb' 5 5 = w.extractLsb' 5 5)
    (hred : v.extractLsb' 0 5 = w.extractLsb' 0 5) : v = w :=
  eq_of_marked_of_low_eq hv hw <| by
    rw [← channels_append v, ← channels_append w, hgreen, hblue, hred]

/-! ## `PackRGB` and `PackRaw` -/

theorem channel_of_masked (c : BitVec 8) : channel (c &&& 0x1F#8) = channel c := by
  rw [channel, channel, BitVec.and_assoc, BitVec.and_self]

theorem packRgb_of_masked (r g b : BitVec 8) :
    packRgb (r &&& 0x1F#8) (g &&& 0x1F#8) (b &&& 0x1F#8) = packRgb r g b := by
  simp only [packRgb, channel_of_masked]

theorem low_five_eq_iff {c d : BitVec 8} :
    c.extractLsb' 0 5 = d.extractLsb' 0 5 ↔ c.toNat % 32 = d.toNat % 32 := by
  simp [BitVec.toNat_eq]

theorem packRgb_eq_iff {r g b r' g' b' : BitVec 8} :
    packRgb r g b = packRgb r' g' b' ↔
      r.toNat % 32 = r'.toNat % 32 ∧ g.toNat % 32 = g'.toNat % 32 ∧ b.toNat % 32 = b'.toNat % 32 := by
  simp only [← low_five_eq_iff, ← packRgb_red r g b, ← packRgb_green r g b, ← packRgb_blue r g b,
    ← packRgb_red r' g' b', ← packRgb_green r' g' b', ← packRgb_blue r' g' b']
  constructor
  · intro h
    rw [h]
    exact ⟨rfl, rfl, rfl⟩
  · rintro ⟨hred, hgreen, hblue⟩
    exact eq_of_marked_of_channels_eq (packRgb_marked r g b) (packRgb_marked r' g' b') hgreen hblue hred

/-- A marked word is packed from its own channels, which mask to themselves. -/
theorem packRgb_channels {w : Word} (hw : marked w = true) :
    packRgb ((w.extractLsb' 0 5).setWidth 8) ((w.extractLsb' 10 5).setWidth 8) ((w.extractLsb' 5 5).setWidth 8) = w := by
  have hfive (c : BitVec 5) : (c.setWidth 8).extractLsb' 0 5 = c := by
    rw [BitVec.extractLsb'_setWidth_of_le (by decide), BitVec.extractLsb'_eq_self]
  refine eq_of_marked_of_channels_eq (packRgb_marked _ _ _) hw ?_ ?_ ?_
  · rw [packRgb_green, hfive]
  · rw [packRgb_blue, hfive]
  · rw [packRgb_red, hfive]

theorem marked_iff_exists_packRgb (w : Word) : marked w = true ↔ ∃ r g b, packRgb r g b = w := by
  constructor
  · exact fun hw => ⟨_, _, _, packRgb_channels hw⟩
  · rintro ⟨r, g, b, rfl⟩
    exact packRgb_marked r g b

theorem packRaw_eq_self_iff (v : BitVec 16) : packRaw v = v ↔ marked v = true := by
  constructor
  · exact fun h => h ▸ packRaw_marked v
  · exact fun hv => eq_of_marked_of_low_eq (packRaw_marked v) hv (packRaw_passes v)

theorem highByte_append_lowByte (w : Word) : highByte w ++ lowByte w = w :=
  BitVec.extractLsb'_append_extractLsb' (w := 8) (len := 8)

/-- Settles O9: `PackRaw` fixes what is marked, which `PackRGB` and `PackRaw` both deliver. -/
theorem packingLaws : Obligations.PackingLaws := by
  refine ⟨fun r g b => ?_, fun _ _ _ _ _ _ => packRgb_eq_iff, fun v => ?_, highByte_append_lowByte,
    marked_iff_exists_packRgb⟩
  · exact ⟨packRgb_marked r g b, (packRgb_of_masked r g b).symm, (packRaw_eq_self_iff _).2 (packRgb_marked r g b)⟩
  · exact ⟨(packRaw_eq_self_iff _).2 (packRaw_marked v), packRaw_eq_self_iff v, packRaw_passes v⟩

end Sys2Proof.Machine
end

section
/-! No step faults (R130): the one fault is WRITE's, at an index out of range, and the port never holds one. -/

namespace Sys2Proof.Machine

theorem execConstruct_ne_fault (count : Nat) (s : State) (r : Fault) : execConstruct count s ≠ .fault r := by
  by_cases hc : countLegal s.idxw count = true
  · simp [execConstruct_legal hc]
  · simp [execConstruct_illegal (Bool.eq_false_of_not_eq_true hc)]

/-- No instruction faults: what can fault is an internal step of SETPIX. -/
theorem exec_ne_fault (i : Instr) (s : State) (r : Fault) : exec i s ≠ .fault r := by
  by_cases hi : isCommand i = true
  · exact exec_command_ne_fault hi r
  · cases i with
    | tick => exact execTick_ne_fault s r
    | construct count => exact execConstruct_ne_fault count s r
    | begin | setrate | pixcount | setpixRgb | setpixPacked | refresh => exact absurd rfl hi

theorem fetchForeground_eq_resume {s u : State} (h : fetchForeground s = .resume u) : u = s := by
  unfold fetchForeground at h
  split at h <;> cases h <;> rfl

/-- Where the foreground goes on, only its turn has been taken. -/
theorem fetch_eq_resume {s u : State} (h : fetch s = .resume u) :
    ∃ turns : List Turn, u = { s with turns := turns } := by
  unfold fetch at h
  split at h
  · cases h
  · exact ⟨_, fetchForeground_eq_resume h⟩
  · cases h
  · cases h

/-- A step faults only as the WRITE of a SETPIX granted an index out of range. -/
theorem step_fault {s : State} {r : Fault} (h : step s = .fault r) : ∃ i w, s.fg = .granted i w ∧ s.count ≤ i := by
  unfold step at h
  split at h
  · cases h
  · rename_i u hfetch
    obtain ⟨turns, rfl⟩ := fetch_eq_resume hfetch
    exact resumeForeground_fault (s := { s with turns := turns }) h
  · split at h
    · exact absurd h (exec_ne_fault _ _ r)
    · exact absurd h (rejectInput_ne_fault _ _ r)

/-- Settles O50: by R34 a granted index is in range. -/
theorem stepNeverFaults : Obligations.StepNeverFaults := by
  intro s hinv r h
  obtain ⟨i, w, hf, hout⟩ := step_fault h
  have hok := hinv.port_ok
  rw [hf] at hok
  exact Nat.not_lt.2 hout (fgOk_granted_iff.1 hok).1

end Sys2Proof.Machine
end

section
/-! A request made before BEGIN waits for the first tick (R125 (d), R154). -/

namespace Sys2Proof.Machine

/-- Settles O44: no pass runs before BEGIN, and BEGIN leaves the request of REFRESH standing, so the first tick is case
START. -/
theorem earlyRefreshStartsTheFirstPass : Obligations.EarlyRefreshStartsTheFirstPass := by
  intro s hinv hst hf
  have hidle : s.streaming = false := hinv.idle_of_stopped hst
  exact ⟨_, _, _, refreshSetsTheRequest s hf, beginStartsTheTickSource _ hf hst,
    tickStartBeginsAPass _ rfl hidle rfl, rfl, rfl, rfl, rfl⟩

end Sys2Proof.Machine
end

section
/-! The canonical form of the Pixel Store is unique (log 12): its first listed index is the first one that does not read
black, so the reads determine the list from its head on. -/

namespace Sys2Proof.Machine

/-- No index before the first listed one reads other than black. -/
theorem Memory.head_le_of_read_ne_black {lo a i : Nat} {w : Word} {m : Memory}
    (hm : Memory.wfFrom lo ((a, w) :: m) = true) (hi : Memory.read ((a, w) :: m) i ≠ black) : a ≤ i := by
  have hfrom : Memory.wfFrom a ((a, w) :: m) = true := Memory.wfFrom_cons.2 ⟨le_rfl, (Memory.wfFrom_cons.1 hm).2⟩
  exact Nat.not_lt.1 fun hlt => hi (Memory.read_below hfrom hlt)

theorem Memory.read_head (a : Nat) (w : Word) (m : Memory) : Memory.read ((a, w) :: m) a = w := if_pos rfl

/-- The first listed index reads its listed word, which is not black. -/
theorem Memory.read_head_ne_black {lo a : Nat} {w : Word} {m : Memory}
    (hm : Memory.wfFrom lo ((a, w) :: m) = true) : Memory.read ((a, w) :: m) a ≠ black := by
  rw [Memory.read_head]
  exact (Memory.wfFrom_cons.1 hm).2.1

/-- Behind one and the same head, stores that read alike have tails that read alike: below the tail all is black. -/
theorem Memory.read_tail_congr {a : Nat} {w : Word} {m m' : Memory} (hm : Memory.wfFrom (a + 1) m = true)
    (hm' : Memory.wfFrom (a + 1) m' = true)
    (h : ∀ i, Memory.read ((a, w) :: m) i = Memory.read ((a, w) :: m') i) (i : Nat) :
    Memory.read m i = Memory.read m' i := by
  by_cases hi : a = i
  · rw [Memory.read_below hm (by omega), Memory.read_below hm' (by omega)]
  · simpa only [Memory.read_cons, if_neg hi] using h i

theorem Memory.eq_of_read_eq {m : Memory} : ∀ {m' : Memory} {lo lo' : Nat}, Memory.wfFrom lo m = true →
    Memory.wfFrom lo' m' = true → (∀ i, Memory.read m i = Memory.read m' i) → m = m' := by
  induction m with
  | nil =>
    intro m' _ _ _ hm' h
    cases m' with
    | nil => rfl
    | cons c' m' => exact absurd (h c'.1).symm (Memory.read_head_ne_black hm')
  | cons c m ih =>
    obtain ⟨a, w⟩ := c
    intro m' _ _ hm hm' h
    cases m' with
    | nil => exact absurd (h a) (Memory.read_head_ne_black hm)
    | cons c' m' =>
      obtain ⟨a', w'⟩ := c'
      have hle : a ≤ a' := Memory.head_le_of_read_ne_black hm (h a' ▸ Memory.read_head_ne_black hm')
      have hge : a' ≤ a := Memory.head_le_of_read_ne_black hm' (h a ▸ Memory.read_head_ne_black hm)
      obtain rfl : a = a' := le_antisymm hle hge
      obtain rfl : w = w' := by simpa only [Memory.read_head] using h a
      obtain ⟨_, _, htail⟩ := Memory.wfFrom_cons.1 hm
      obtain ⟨_, _, htail'⟩ := Memory.wfFrom_cons.1 hm'
      rw [ih htail htail' (Memory.read_tail_congr htail htail' h)]

/-- Settles O13: the canonical form is the one from index 0 on. -/
theorem storesThatReadAlikeAreEqual : Obligations.StoresThatReadAlikeAreEqual :=
  fun _ _ hm hm' h => Memory.eq_of_read_eq hm hm' h

end Sys2Proof.Machine
end

section
/-! Words of the opcode table: what they decode to, and where the model's loader places them (log 15, log 16); and what
CONSTRUCT does to the fields that belong to the outside (log 3, log 11, log 17). -/

namespace Sys2Proof.Machine

/-- Settles O3, by evaluating the decoder at each of the six fixed words. -/
theorem vectorWordsDecodeAsListed : Obligations.VectorWordsDecodeAsListed :=
  ⟨by decide, by decide, by decide, by decide, by decide, by decide⟩

/-- Settles O28: what CONSTRUCT answers is `constructed`, whose `position` is a remainder modulo `2 ^ IDXW`. -/
theorem constructKeepsTheOutside : Obligations.ConstructKeepsTheOutside := by
  intro s t c h
  obtain ⟨_, rfl⟩ := execConstruct_next h
  exact ⟨Nat.mod_lt _ (Nat.two_pow_pos _), rfl, rfl, rfl, rfl, rfl⟩

theorem decodeTableWord_eq_some_iff {nbits w : Nat} {i : Instr} :
    decodeTableWord nbits w = some i ↔ decode Config.referenceIdxw (tableInput nbits w) = .ok i := by
  unfold decodeTableWord
  split <;> simp [*]

/-- A strobe placed from outside is taken by the next step, with the tick source started. -/
theorem step_placeInput_strobe {s : State} {level : BitVec 1} {i : Instr}
    (hd : decode s.idxw (.strobe level) = .ok i) :
    step (placeInput s (.strobe level)) = exec i { s with started := true } :=
  step_strobe_decoded (s := placeInput s (.strobe level)) rfl hd

/-- A command word placed from outside is issued by the next step, at a ready port. -/
theorem step_placeInput_command {s : State} {w : Nat} {i : Instr} (hd : decode s.idxw (.command w) = .ok i) :
    step (placeInput s (.command w)) = exec i { s with fg := .ready } :=
  step_issue_decoded (s := placeInput s (.command w)) rfl rfl rfl hd

/-- Settles O46, by what the table word stands for: the tick strobe up to 8 bits, else a command word. -/
theorem placedWordRunsNext : Obligations.PlacedWordRunsNext := by
  intro s nbits w i hidxw hd
  rw [decodeTableWord_eq_some_iff, ← hidxw] at hd
  by_cases hn : nbits ≤ 8
  · simp only [State.withFetchWord, tableInput, if_pos hn] at hd ⊢
    exact step_placeInput_strobe hd
  · simp only [State.withFetchWord, tableInput, if_neg hn] at hd ⊢
    exact step_placeInput_command hd

end Sys2Proof.Machine
end
